-- ==== Sys2Proof/Word.lean ====
section
/-! DEFINITION. The words of the MW6120: bytes, time base values, sequence numbers, and the addresses that are strings of bytes. -/

namespace Sys2Proof

/-- One byte of a frame, a record or a body. -/
abbrev Byte := BitVec 8

/-- A value of the time base, in ms; it wraps at 2^32 (R178). -/
abbrev Time := BitVec 32

/-- A TCP sequence or acknowledgement number; compared and added modulo 2^32 (R92). -/
abbrev Seq := BitVec 32

/-- A MAC address: 6 bytes, first byte first. -/
abbrev Mac := List Byte

/-- An address as an identity entry holds it: 4 bytes (IPv4), 16 bytes (IPv6) or 6 bytes (MAC). -/
abbrev Addr := List Byte

end Sys2Proof
end

