-- ==== Sys2Proof/Machine/Bytes.lean ====
section
/-! DEFINITION. Byte order, slices, and the two checks of the part: the CRC of both links and the ones' complement sum of the
protocols. -/

namespace Sys2Proof.Machine

open Sys2Proof

/-- A number as one byte, its low 8 bits. -/
def byte (n : Nat) : Byte := BitVec.ofNat 8 n

/-- A number as two bytes, most significant first (00, "Numbers and quantities"). -/
def be16 (n : Nat) : List Byte := [byte (n / 256), byte n]

/-- A number as four bytes, most significant first. -/
def be32 (n : Nat) : List Byte := [byte (n / 16777216), byte (n / 65536), byte (n / 256), byte n]

/-- The number that bytes spell, most significant first. -/
def beNat (l : List Byte) : Nat := l.foldl (fun acc b => acc * 256 + b.toNat) 0

/-- The byte at an offset; 0 beyond the end. -/
def at1 (l : List Byte) (i : Nat) : Nat := (l.getD i 0).toNat

/-- The 16-bit number at an offset. -/
def at2 (l : List Byte) (i : Nat) : Nat := at1 l i * 256 + at1 l (i + 1)

/-- The 32-bit number at an offset. -/
def at4 (l : List Byte) (i : Nat) : Nat := at2 l i * 65536 + at2 l (i + 2)

/-- The n bytes from an offset on. -/
def slice (l : List Byte) (i n : Nat) : List Byte := (l.drop i).take n

/-- Bytes written over a string from an offset on; the string keeps its length where they lie within it. -/
def overwrite (l : List Byte) (i : Nat) (new : List Byte) : List Byte :=
  l.take i ++ new ++ l.drop (i + new.length)

/-- n fill bytes of 0. -/
def zeros (n : Nat) : List Byte := List.replicate n 0

/-- A string of zeros only. -/
def allZero (l : List Byte) : Bool := l.all (· == 0)

/-- The first n bits of two strings agree (R63, source prefix). -/
def samePrefixBits : Nat → List Byte → List Byte → Bool
  | _, [], _ => true
  | _, _ :: _, [] => true
  | n, a :: l, b :: m =>
    if n = 0 then true
    else if n < 8 then (a ^^^ b).toNat / 2 ^ (8 - n) == 0
    else a == b && samePrefixBits (n - 8) l m

/-- One bit of the CRC of section 11.1: polynomial 0x1021, most significant bit first. -/
def crcBit (c : BitVec 16) : BitVec 16 := if c.msb then (c <<< 1) ^^^ 0x1021 else c <<< 1

/-- One byte of the CRC of section 11.1. -/
def crcByte (c : BitVec 16) (b : Byte) : BitVec 16 :=
  let c0 := c ^^^ (b.setWidth 16 <<< 8)
  crcBit (crcBit (crcBit (crcBit (crcBit (crcBit (crcBit (crcBit c0)))))))

/-- The check of both links (section 11.1): CRC-16 with initial value 0xFFFF, no reflection, no final inversion. -/
def crc16 (l : List Byte) : BitVec 16 := l.foldl crcByte 0xFFFF

/-- The check as it is sent, high byte first. -/
def checkBytes (l : List Byte) : List Byte := be16 (crc16 l).toNat

/-- The plain sum of a string's 16-bit words, most significant byte first; an odd last byte is an upper byte (R34). -/
def wordSum : List Byte → Nat
  | [] => 0
  | [a] => a.toNat * 256
  | a :: b :: l => a.toNat * 256 + b.toNat + wordSum l

/-- A plain sum of 16-bit words brought to 16 bits with end-around carry: ones' complement addition (R34). -/
def foldCarry (n : Nat) : Nat := if n = 0 then 0 else if n % 65535 = 0 then 65535 else n % 65535

/-- The ones' complement sum of R34. -/
def onesSum (l : List Byte) : Nat := foldCarry (wordSum l)

/-- The checksum of R34: the ones' complement of the sum. -/
def checksum (l : List Byte) : Nat := 65535 - onesSum l

/-- A received checksum is correct when the sum with the field as received is 0xFFFF (R34). -/
def sumCorrect (l : List Byte) : Bool := onesSum l == 65535

end Sys2Proof.Machine
end

