-- ==== Sys2Proof/Syntax.lean ====
section
/-! DEFINITION. The commands of the block: one constructor for each row of spec/opcode_table.json. -/

namespace Sys2Proof

/-- The period classes of R72. -/
inductive PeriodClass where
  | p0 | p1 | p2 | p3
  deriving DecidableEq, Repr

/-- The steps of the part. A host request carries its tag and its body as clocked; the body's layout is
read when the request is carried out. A timer's expiry names the table index of its owner. -/
inductive Instr where
  /-- FULL_RESET (R1): the whole reset, and the levels of HCS and HOSTUP when it ends. -/
  | fullReset (hcsLow hostupHigh : Bool)
  /-- HOSTUP_LINE_CHANGE (R141): the line takes the level. -/
  | hostupLineChange (high : Bool)
  /-- HOSTUP_RISE_TAKEN (R141). -/
  | hostupRiseTaken
  /-- HOSTUP_FALL_TAKEN (R141). -/
  | hostupFallTaken
  /-- HCS_FALL (R163). -/
  | hcsFall
  /-- HCS_RISE (R165), with every whole byte the host clocked in the transaction. -/
  | hcsRise (clocked : List Byte)
  | nop (tag : Byte) (body : List Byte)
  | handOver (tag : Byte) (body : List Byte)
  | takeBack (tag : Byte) (body : List Byte)
  | identityPut (tag : Byte) (body : List Byte)
  | identityDrop (tag : Byte) (body : List Byte)
  | identityList (tag : Byte) (body : List Byte)
  | rulePut (tag : Byte) (body : List Byte)
  | ruleDrop (tag : Byte) (body : List Byte)
  | ruleList (tag : Byte) (body : List Byte)
  | templatePut (tag : Byte) (body : List Byte)
  | templateDrop (tag : Byte) (body : List Byte)
  | templateList (tag : Byte) (body : List Byte)
  | sessionPut (tag : Byte) (body : List Byte)
  | sessionDrop (tag : Byte) (body : List Byte)
  | sessionGet (tag : Byte) (body : List Byte)
  | policySet (tag : Byte) (body : List Byte)
  | policyGet (tag : Byte) (body : List Byte)
  | wakeRecord (tag : Byte) (body : List Byte)
  | evidenceRead (tag : Byte) (body : List Byte)
  | evidenceRelease (tag : Byte) (body : List Byte)
  | holdStatus (tag : Byte) (body : List Byte)
  /-- STATUS (R183) with any body but the one byte CLEAR, which is STATUS_CLEAR. -/
  | status (tag : Byte) (body : List Byte)
  /-- STATUS (R183) whose body is the one byte CLEAR. -/
  | statusClear (tag : Byte)
  | clearAll (tag : Byte) (body : List Byte)
  /-- RX_FRAME (R151): a whole, correct record and its body. -/
  | rxFrame (frame : List Byte)
  | txDone
  | txRefused
  | deliverDone
  | linkUp
  | linkDown
  | portReset
  /-- STATION_RECORD_ERROR (R185): the bytes between two gaps that are no correct record. -/
  | stationRecordError (bytes : List Byte)
  | frameTaken
  | lengthCheck
  | vlanCheck
  | destinationCheck
  | sessionDispatch
  | responderDispatch
  | ruleMatch
  | defaultAction
  | periodExpiry (cls : PeriodClass)
  | leaseMarginReached (entry : Nat)
  | leaseDeadline (entry : Nat)
  | reportDeadline (entry : Nat)
  | dueExpiry (session : Nat)
  | probeTimerExpiry (session : Nat)
  | wakeResponseExpiry
  | retryGapExpiry
  | claimWindowExpiry
  deriving DecidableEq, Repr

end Sys2Proof
end

