-- ==== Sys2Proof/Machine/Types.lean ====
section
/-! DEFINITION. The records and names that the blocks of the part hold. -/

namespace Sys2Proof.Machine

open Sys2Proof

/-- The stand-in states (chapter 1). -/
inductive StandIn where
  | attended | arming | standing | calling | returning
  deriving DecidableEq, Repr

/-- The sleep depths named by HAND OVER. -/
inductive Depth where
  | light | deep
  deriving DecidableEq, Repr

/-- The reasons of R3. -/
inductive Reason where
  | powerUp | handedOver | called | takenBack | selfReturn | gaveUp | drained | cut
  deriving DecidableEq, Repr

/-- The seven causes of chapter 7, in order of priority. -/
inductive Cause where
  | conflict | link | sessionLost | sessionData | rule | lease | holdHigh
  deriving DecidableEq, Repr

/-- A set of causes as the links carry it: bit p - 1 stands for the cause of priority p (chapter 11). -/
abbrev CauseSet := BitVec 8

/-- The outcomes of R139. -/
inductive WakeOutcome where
  | none | claimed | self | selfReturn | lost
  deriving DecidableEq, Repr

/-- The call phases of section 7.6. -/
inductive CallPhase where
  | none | asserting | gap | claim
  deriving DecidableEq, Repr

/-- A timer of R179: the time base value at its start, and its length in ms. -/
structure Timer where
  start : Time
  length : Nat
  deriving DecidableEq, Repr

/-- The kinds of identity entry (R28). -/
inductive EntryKind where
  | link | ipv4 | ipv6 | group4 | group6
  deriving DecidableEq, Repr

/-- The states of an IPV4 or IPV6 entry (section 2.3). -/
inductive EntryState where
  | active | ceded | expired
  deriving DecidableEq, Repr

/-- A lease: the time base value at the PUT and the lease in s. Its deadline is their sum (R28). -/
structure Lease where
  start : Time
  seconds : Nat
  deriving DecidableEq, Repr

/-- The form of a membership report (R43). -/
inductive ReportForm where
  | short | extended
  deriving DecidableEq, Repr

/-- A report pending deadline (R44): when the query was taken, the delay it gave, the form it asked for, and
whether the report has fallen due and waits for transmit room (R45). -/
structure PendingReport where
  start : Time
  length : Nat
  form : ReportForm
  due : Bool
  deriving DecidableEq, Repr

/-- An identity entry (R28); the last nine fields are the runtime fields and the pending defence of R39. -/
structure IdentityEntry where
  kind : EntryKind
  vlan : Nat
  addr : Addr
  link : Nat
  defend : Bool
  answer : Bool
  lease : Option Lease
  state : EntryState
  conflicts : Nat
  lastDefence : Option Time
  answers : BitVec 32
  leaseMark : Bool
  report : Option PendingReport
  budget : Nat
  defence : Bool
  deriving DecidableEq, Repr

/-- A source prefix of R63: 4 or 16 address bytes and a length in bits. -/
structure SourcePrefix where
  addr : Addr
  bits : Nat
  deriving DecidableEq, Repr

/-- A payload pattern of R64. -/
structure Pattern where
  offset : Nat
  bytes : List Byte
  mask : List Byte
  deriving DecidableEq, Repr

/-- The nine match fields of R63, each present or absent. -/
structure MatchFields where
  vlan : Option Nat
  etherType : Option Nat
  ipVersion : Option Nat
  ipProto : Option Nat
  source : Option SourcePrefix
  destIndex : Option Nat
  ports : Option (Nat × Nat)
  tcpFlags : Option (Byte × Byte)
  pattern : Option Pattern
  deriving DecidableEq, Repr

/-- The actions of R62; TEMPLATE carries its template index. -/
inductive RuleAction where
  | discard | hold | wake | holdWake | echo | template (index : Nat)
  deriving DecidableEq, Repr

/-- The overflow actions of R62. -/
inductive OverflowAction where
  | discard | hold | wake
  deriving DecidableEq, Repr

/-- A rule (R62) with its two runtime counts. -/
structure Rule where
  fields : MatchFields
  action : RuleAction
  limit : Nat
  period : PeriodClass
  overflow : OverflowAction
  hits : Nat
  overflows : Nat
  deriving DecidableEq, Repr

/-- The transport protocol of a TRANSPORT_CHECKSUM patch point. -/
inductive ChecksumProto where
  | udp | tcp
  deriving DecidableEq, Repr

/-- The patch points of R80. -/
inductive Patch where
  | macFromSource
  | ipFromSource (target version : Nat)
  | portFromSource (target : Nat)
  | copy (source target length : Nat)
  | ip4Checksum (target : Nat)
  | transportChecksum (target version : Nat) (proto : ChecksumProto)
  deriving DecidableEq, Repr

/-- A template (R79). headerWords holds one number for each patch point: the recorded header length in
words of a checksum point over IPv4, 0 for every other point. -/
structure Template where
  bytes : List Byte
  patches : List Patch
  headerWords : List Nat
  built : Nat
  failed : Nat
  deriving DecidableEq, Repr

/-- The states of a session record (R92). -/
inductive SessionState where
  | ready | probing | heardData | closed | lost | returned
  deriving DecidableEq, Repr

/-- The phases of a probe (R99). -/
inductive ProbePhase where
  | none | pending | queued | timing
  deriving DecidableEq, Repr

/-- A session record (R92). probeId names the probe last accepted by the transmit queue, and firstProbe the
first probe that can be this record's: with them a settlement is matched to its record (R99, R153). -/
structure Session where
  localIndex : Nat
  localPort : Nat
  remoteAddr : Addr
  remotePort : Nat
  nextHop : Mac
  sndNxt : Seq
  rcvNxt : Seq
  window : Nat
  interval : Nat
  timeout : Nat
  limit : Nat
  idleAge : Nat
  state : SessionState
  atReturn : Option SessionState
  outstanding : Nat
  phase : ProbePhase
  nextDue : Option Time
  deadline : Option Time
  lastHeard : Option Time
  probesSent : Nat
  peerAcks : Nat
  peerProbes : Nat
  dataHeld : Nat
  outOfWindow : Nat
  probeId : Nat
  firstProbe : Nat
  deriving DecidableEq, Repr

/-- Who asked for a hold (R114). -/
inductive HoldSource where
  | session (index : Nat) | rule (position : Nat) | byDefault | atReturn
  deriving DecidableEq, Repr

/-- The delivery state of a held frame (R114). -/
inductive Delivery where
  | waiting | inFlight
  deriving DecidableEq, Repr

/-- A held-frame record (R114); its length is the number of its bytes. -/
structure HeldFrame where
  arrival : Time
  source : HoldSource
  kept : Bool
  vlan : Nat
  bytes : List Byte
  delivery : Delivery
  deriving DecidableEq, Repr

/-- The level flag of the hold buffer (R119). -/
inductive Level where
  | below | above
  deriving DecidableEq, Repr

/-- A filled evidence slot (R134). -/
structure Evidence where
  cause : Cause
  origin : Option Nat
  time : Time
  length : Nat
  bytes : List Byte
  deriving DecidableEq, Repr

/-- The wake record (R138). -/
structure WakeRecord where
  depth : Option Depth
  firstTime : Option Time
  primary : Option Cause
  enabled : CauseSet
  noted : CauseSet
  attempts : Nat
  outcome : WakeOutcome
  deriving DecidableEq, Repr

/-- The default action of the policy (R71). -/
inductive DefaultAction where
  | discard | hold
  deriving DecidableEq, Repr

/-- The hold overflow of the policy (R115). -/
inductive HoldOverflow where
  | dropNewest | dropOldest
  deriving DecidableEq, Repr

/-- The policy record (R174): the two columns of the wake matrix and the other fields; durations in s. -/
structure Policy where
  light : CauseSet
  deep : CauseSet
  defaultAction : DefaultAction
  overflow : HoldOverflow
  highMark : Nat
  wakeResponse : Nat
  retries : Nat
  claimWindow : Nat
  leaseMargin : Nat
  answerLimit : Nat
  deriving DecidableEq, Repr

/-- The transmit kinds (section 8.3). -/
inductive TxKind where
  | answer | ack | announce | probe | report
  deriving DecidableEq, Repr

/-- The owner's item that a transmit slot refers to (R153): a list item with the build of the list it belongs
to, a defence, a due report, a probe by session and number, or nothing that is told. -/
inductive TxOwner where
  | untold
  | listItem (build entry : Nat)
  | defence (entry : Nat)
  | dueReport (entry : Nat)
  | probe (session number : Nat)
  deriving DecidableEq, Repr

/-- A slot of the transmit queue (R153). -/
structure TxSlot where
  kind : TxKind
  owner : TxOwner
  frame : List Byte
  deriving DecidableEq, Repr

/-- The grant turn (R155). -/
inductive Turn where
  | responder | keeper
  deriving DecidableEq, Repr

/-- A record the device sends on the station link (chapter 8). -/
inductive StationOut where
  | txFrame (frame : List Byte)
  | deliver (arrival : Time) (source : HoldSource) (frame : List Byte)
  | ready (room : Nat)
  deriving DecidableEq, Repr

/-- The station record that changed the link state (R160). -/
inductive LinkRecord where
  | linkUp | linkDown | portReset
  deriving DecidableEq, Repr

/-- The notices of section 9.4, each with the lost count it carries. -/
inductive Notice where
  | stateChanged (lost : Nat) (time : Time) (prev new : StandIn) (reason : Reason)
  | linkChanged (lost : Nat) (time : Time) (up : Bool) (by' : LinkRecord)
  deriving DecidableEq, Repr

/-- The judgements of the host's frame (R165). -/
inductive FrameOutcome where
  | none | taken | notTakenBusy | badCheck | short | unknownKind
  deriving DecidableEq, Repr

/-- The kinds of frame the device sends to the host. -/
inductive FrameKind where
  | reply | notice | wait | empty
  deriving DecidableEq, Repr

/-- The frame out of a transaction, as chosen at the HCS fall (R163). -/
structure FrameOut where
  kind : FrameKind
  tag : Byte
  outcome : FrameOutcome
  body : List Byte
  deriving DecidableEq, Repr

/-- A reply waiting in the reply slot: the tag of its request and its body. -/
structure Reply where
  tag : Byte
  body : List Byte
  deriving DecidableEq, Repr

/-- The status values of R169. -/
inductive Status where
  | ok | wrongState | badField | badLength | noRoom | noEntry | duplicate | inUse | staleSession | incomplete
  deriving DecidableEq, Repr

/-- The requests of the catalogue (section 9.5). -/
inductive RequestKind where
  | nop | handOver | takeBack | identityPut | identityDrop | identityList | rulePut | ruleDrop | ruleList
  | templatePut | templateDrop | templateList | sessionPut | sessionGet | sessionDrop | policySet | policyGet
  | wakeRecord | evidenceRead | evidenceRelease | holdStatus | status | clearAll
  deriving DecidableEq, Repr

/-- The dispositions of R75. -/
inductive Disposition where
  | discarded | answered | absorbed | held
  deriving DecidableEq, Repr

/-- The step of R51 that a frame in classification has to make next. -/
inductive ClassStep where
  | length | vlan | destination | session | responder | rule | default
  deriving DecidableEq, Repr

/-- What a classification in progress still reads after an edit has met it (R52): the items as they stood before
the edit, by index, the rules with the place each now holds, and the policy. All empty unless an edit was
taken after a return cut short. -/
structure Superseded where
  entries : List (Nat × Option IdentityEntry)
  sessions : List (Nat × Option Session)
  templates : List (Nat × Option Template)
  rules : Option (List (Rule × Option Nat))
  policy : Option Policy
  deriving DecidableEq, Repr

/-- The frame in classification (R52). reached4 says that the frame stood at step 4 when RETURNING was
entered (R111). -/
structure Classification where
  frame : List Byte
  step : ClassStep
  reached4 : Bool
  superseded : Superseded
  deriving DecidableEq, Repr

/-- The device counters of R180. -/
structure Counters where
  framesReceived : Nat
  receiveRefused : Nat
  recordErrors : Nat
  framesTaken : Nat
  filtered : Nat
  discarded : Nat
  answered : Nat
  absorbed : Nat
  held : Nat
  droppedAnswer : Nat
  droppedAck : Nat
  droppedAnnounce : Nat
  droppedProbe : Nat
  droppedReport : Nat
  sentAnswer : Nat
  sentAck : Nat
  sentAnnounce : Nat
  sentProbe : Nat
  sentReport : Nat
  txRefused : Nat
  overBudget : Nat
  templateShort : Nat
  holdRefused : Nat
  displaced : Nat
  delivered : Nat
  cutDiscarded : Nat
  conflicts : Nat
  hostBadCheck : Nat
  hostShort : Nat
  hostBusy : Nat
  deriving DecidableEq, Repr

/-- The names of the device counters; the two counters kept per kind carry the kind. -/
inductive Counter where
  | framesReceived | receiveRefused | recordErrors | framesTaken | filtered
  | settled (d : Disposition)
  | dropped (k : TxKind) | transmitted (k : TxKind)
  | txRefused | overBudget | templateShort | holdRefused | displaced | delivered | cutDiscarded | conflicts
  | hostBadCheck | hostShort | hostBusy
  deriving DecidableEq, Repr

end Sys2Proof.Machine
end

