-- ==== Sys2Proof/Machine/State.lean ====
section
/-! DEFINITION. The state of the MW6120, block by block, as plain data; its value right after a full reset; and the reasons a
step could stop. -/

namespace Sys2Proof.Machine

open Sys2Proof

/-- The stand-in controller (R1), with the DIVERT output. -/
structure Controller where
  standIn : StandIn
  depth : Option Depth
  divert : Bool
  drain : Bool
  deriving DecidableEq, Repr

/-- The identity responder (chapter 2): the table by index, the entries whose list items are not yet in the
transmit queue, the number of the present build of the list, and the settled counts of R10. -/
structure Responder where
  entries : List (Option IdentityEntry)
  list : List Nat
  build : Nat
  settledDone : Nat
  settledRefused : Nat
  deriving DecidableEq, Repr

/-- The period-class timers (R72): the time base value at the last expiry of each class. -/
structure Periods where
  p0 : Time
  p1 : Time
  p2 : Time
  p3 : Time
  deriving DecidableEq, Repr

/-- The frame classifier (chapter 3). -/
structure Classifier where
  rules : List Rule
  periods : Periods
  current : Option Classification
  deriving DecidableEq, Repr

/-- The template builder (chapter 4): the store by index. -/
structure Builder where
  templates : List (Option Template)
  deriving DecidableEq, Repr

/-- The session keeper (chapter 5): the table by index, and the number of the next probe. -/
structure Keeper where
  sessions : List (Option Session)
  nextProbe : Nat
  deriving DecidableEq, Repr

/-- The hold buffer (chapter 6). Held bytes are the sum of the records' lengths. -/
structure HoldBuffer where
  queue : List HeldFrame
  level : Level
  forgotten : Nat
  deriving DecidableEq, Repr

/-- The wake unit (chapter 7), with WAKEREQ, the HOSTUP line and its filter, and the policy record. -/
structure WakeUnit where
  record : WakeRecord
  slotA : Option Evidence
  slotB : Option Evidence
  lock : Bool
  uncaptured : Nat
  phase : CallPhase
  response : Option Timer
  gap : Option Timer
  claim : Option Timer
  hostupLine : Bool
  hostupFiltered : Bool
  hostupSince : Option Time
  wakereq : Bool
  policy : Policy
  deriving DecidableEq, Repr

/-- The station link port (chapter 8), with the records sent since the last full reset, oldest first. -/
structure StationPort where
  rxBuffer : List (List Byte)
  txQueue : List TxSlot
  linkUp : Bool
  turn : Turn
  sent : List StationOut
  deriving DecidableEq, Repr

/-- The host link port and the request executor (chapter 9), with the HCS and ATTN lines. inFlight is the tag of
the request in flight; unseen marks a transaction that was in progress when a full reset ended (R167). -/
structure HostPort where
  assembly : List Byte
  frameOut : Option FrameOut
  reply : Option Reply
  previous : FrameOutcome
  notices : List Notice
  lost : Nat
  attn : Bool
  inFlight : Option Byte
  hcsLow : Bool
  unseen : Bool
  deriving DecidableEq, Repr

/-- The whole part, the model's count of free values taken, and the commands that are waiting. -/
structure State where
  time : Time
  controller : Controller
  responder : Responder
  classifier : Classifier
  builder : Builder
  keeper : Keeper
  hold : HoldBuffer
  wake : WakeUnit
  port : StationPort
  host : HostPort
  counters : Counters
  freeCount : Nat
  pending : List Instr
  deriving DecidableEq, Repr

/-- The reasons to stop with a fault: none. The manual gives every command an effect in every state, so no
constructor stands here and no step of the model faults. -/
inductive Fault where
  deriving DecidableEq, Repr

/-- The reasons to refuse a command. -/
inductive Refusal where
  /-- Raised by exec for a command without a meaning, named by its mnemonic (safe: nothing is claimed of it).
  No arm of exec raises it. -/
  | notModelled (mnemonic : String)
  deriving DecidableEq, Repr

/-- The policy record's defaults (R133, R174): CONFLICT, SESSION_LOST, SESSION_DATA, RULE, LEASE and HOLD_HIGH at
LIGHT; CONFLICT, SESSION_DATA and RULE at DEEP. -/
def defaultPolicy : Policy where
  light := 0x7D
  deep := 0x19
  defaultAction := .discard
  overflow := .dropOldest
  highMark := 75
  wakeResponse := 10
  retries := 3
  claimWindow := 20
  leaseMargin := 300
  answerLimit := 20

/-- The empty wake record of R128. -/
def emptyRecord : WakeRecord where
  depth := none
  firstTime := none
  primary := none
  enabled := 0
  noted := 0
  attempts := 0
  outcome := .none

/-- Every device counter at 0 (R180). -/
def zeroCounters : Counters where
  framesReceived := 0
  receiveRefused := 0
  recordErrors := 0
  framesTaken := 0
  filtered := 0
  discarded := 0
  answered := 0
  absorbed := 0
  held := 0
  droppedAnswer := 0
  droppedAck := 0
  droppedAnnounce := 0
  droppedProbe := 0
  droppedReport := 0
  sentAnswer := 0
  sentAck := 0
  sentAnnounce := 0
  sentProbe := 0
  sentReport := 0
  txRefused := 0
  overBudget := 0
  templateShort := 0
  holdRefused := 0
  displaced := 0
  delivered := 0
  cutDiscarded := 0
  conflicts := 0
  hostBadCheck := 0
  hostShort := 0
  hostBusy := 0

/-- The machine right after a power-on reset (R1, R28, R62, R72, R78, R92, R113, R128, R149, R162, R178, R180).
HCS high and the HOSTUP line low at the reset's end are the model's choice (assumption 7). -/
def State.reset : State where
  time := 0
  controller := { standIn := .attended, depth := none, divert := false, drain := false }
  responder :=
    { entries := List.replicate 24 none, list := [], build := 0, settledDone := 0, settledRefused := 0 }
  classifier := { rules := [], periods := { p0 := 0, p1 := 0, p2 := 0, p3 := 0 }, current := none }
  builder := { templates := List.replicate 8 none }
  keeper := { sessions := List.replicate 12 none, nextProbe := 0 }
  hold := { queue := [], level := .below, forgotten := 0 }
  wake :=
    { record := emptyRecord, slotA := none, slotB := none, lock := false, uncaptured := 0, phase := .none,
      response := none, gap := none, claim := none, hostupLine := false, hostupFiltered := false,
      hostupSince := none, wakereq := false, policy := defaultPolicy }
  port := { rxBuffer := [], txQueue := [], linkUp := false, turn := .responder, sent := [.ready 6] }
  host :=
    { assembly := [], frameOut := none, reply := none, previous := .none,
      notices := [.stateChanged 0 0 .attended .attended .powerUp], lost := 0, attn := true,
      inFlight := none, hcsLow := false, unseen := false }
  counters := zeroCounters
  freeCount := 0
  pending := []

end Sys2Proof.Machine
end

