-- ==== Sys2Proof/Machine/Flags.lean ====
section
/-! DEFINITION. Counts that stop at their end, elapsed time, cause sets, the level flag, and the queries over indexed tables. -/

namespace Sys2Proof.Machine

open Sys2Proof

/-- A count raised by k that stops at its end (R180, R135, R171, R92, R79). -/
def satAdd (bound n k : Nat) : Nat := min bound (n + k)

/-- The end of a 32-bit count. -/
def max32 : Nat := 4294967295

/-- A 32-bit saturating count raised by 1. -/
def inc32 (n : Nat) : Nat := satAdd max32 n 1

/-- The value of one device counter. -/
def Counters.get (k : Counters) (c : Counter) : Nat :=
  match c with
  | .framesReceived => k.framesReceived
  | .receiveRefused => k.receiveRefused
  | .recordErrors => k.recordErrors
  | .framesTaken => k.framesTaken
  | .filtered => k.filtered
  | .settled .discarded => k.discarded
  | .settled .answered => k.answered
  | .settled .absorbed => k.absorbed
  | .settled .held => k.held
  | .dropped .answer => k.droppedAnswer
  | .dropped .ack => k.droppedAck
  | .dropped .announce => k.droppedAnnounce
  | .dropped .probe => k.droppedProbe
  | .dropped .report => k.droppedReport
  | .transmitted .answer => k.sentAnswer
  | .transmitted .ack => k.sentAck
  | .transmitted .announce => k.sentAnnounce
  | .transmitted .probe => k.sentProbe
  | .transmitted .report => k.sentReport
  | .txRefused => k.txRefused
  | .overBudget => k.overBudget
  | .templateShort => k.templateShort
  | .holdRefused => k.holdRefused
  | .displaced => k.displaced
  | .delivered => k.delivered
  | .cutDiscarded => k.cutDiscarded
  | .conflicts => k.conflicts
  | .hostBadCheck => k.hostBadCheck
  | .hostShort => k.hostShort
  | .hostBusy => k.hostBusy

/-- One device counter raised by n, stopping at 2^32 - 1 (R180). -/
def Counters.add (k : Counters) (c : Counter) (n : Nat) : Counters :=
  match c with
  | .framesReceived => { k with framesReceived := satAdd max32 k.framesReceived n }
  | .receiveRefused => { k with receiveRefused := satAdd max32 k.receiveRefused n }
  | .recordErrors => { k with recordErrors := satAdd max32 k.recordErrors n }
  | .framesTaken => { k with framesTaken := satAdd max32 k.framesTaken n }
  | .filtered => { k with filtered := satAdd max32 k.filtered n }
  | .settled .discarded => { k with discarded := satAdd max32 k.discarded n }
  | .settled .answered => { k with answered := satAdd max32 k.answered n }
  | .settled .absorbed => { k with absorbed := satAdd max32 k.absorbed n }
  | .settled .held => { k with held := satAdd max32 k.held n }
  | .dropped .answer => { k with droppedAnswer := satAdd max32 k.droppedAnswer n }
  | .dropped .ack => { k with droppedAck := satAdd max32 k.droppedAck n }
  | .dropped .announce => { k with droppedAnnounce := satAdd max32 k.droppedAnnounce n }
  | .dropped .probe => { k with droppedProbe := satAdd max32 k.droppedProbe n }
  | .dropped .report => { k with droppedReport := satAdd max32 k.droppedReport n }
  | .transmitted .answer => { k with sentAnswer := satAdd max32 k.sentAnswer n }
  | .transmitted .ack => { k with sentAck := satAdd max32 k.sentAck n }
  | .transmitted .announce => { k with sentAnnounce := satAdd max32 k.sentAnnounce n }
  | .transmitted .probe => { k with sentProbe := satAdd max32 k.sentProbe n }
  | .transmitted .report => { k with sentReport := satAdd max32 k.sentReport n }
  | .txRefused => { k with txRefused := satAdd max32 k.txRefused n }
  | .overBudget => { k with overBudget := satAdd max32 k.overBudget n }
  | .templateShort => { k with templateShort := satAdd max32 k.templateShort n }
  | .holdRefused => { k with holdRefused := satAdd max32 k.holdRefused n }
  | .displaced => { k with displaced := satAdd max32 k.displaced n }
  | .delivered => { k with delivered := satAdd max32 k.delivered n }
  | .cutDiscarded => { k with cutDiscarded := satAdd max32 k.cutDiscarded n }
  | .conflicts => { k with conflicts := satAdd max32 k.conflicts n }
  | .hostBadCheck => { k with hostBadCheck := satAdd max32 k.hostBadCheck n }
  | .hostShort => { k with hostShort := satAdd max32 k.hostShort n }
  | .hostBusy => { k with hostBusy := satAdd max32 k.hostBusy n }

/-- The device counters in the order of the STATUS reply (section 11.2). -/
def counterOrder : List Counter :=
  [.framesReceived, .receiveRefused, .recordErrors, .framesTaken, .filtered,
   .settled .discarded, .settled .answered, .settled .absorbed, .settled .held,
   .dropped .answer, .dropped .ack, .dropped .announce, .dropped .probe, .dropped .report,
   .transmitted .answer, .transmitted .ack, .transmitted .announce, .transmitted .probe, .transmitted .report,
   .txRefused, .overBudget, .templateShort, .holdRefused, .displaced, .delivered, .cutDiscarded, .conflicts,
   .hostBadCheck, .hostShort, .hostBusy]

/-- The time elapsed since a start, modulo 2^32 (R179). -/
def elapsed (now start : Time) : Nat := (now - start).toNat

/-- A time n ms after another, modulo 2^32 (R178). -/
def later (t : Time) (n : Nat) : Time := t + BitVec.ofNat 32 n

/-- A timer has expired when the elapsed time equals or exceeds its length (R179). -/
def Timer.expired (t : Timer) (now : Time) : Bool := decide (t.length ≤ elapsed now t.start)

/-- A timer that is running and has expired. -/
def timerReady (t : Option Timer) (now : Time) : Bool :=
  match t with
  | some t => t.expired now
  | none => false

/-- The states in which the device answers for the machine and records causes (chapter 1, first table). -/
def StandIn.serving (s : StandIn) : Bool :=
  match s with
  | .arming | .standing | .calling => true
  | .attended | .returning => false

/-- The priority of a cause (section 7.2); 1 is the highest. -/
def Cause.priority (c : Cause) : Nat :=
  match c with
  | .conflict => 1
  | .link => 2
  | .sessionLost => 3
  | .sessionData => 4
  | .rule => 5
  | .lease => 6
  | .holdHigh => 7

/-- The causes in order of priority. -/
def causeOrder : List Cause := [.conflict, .link, .sessionLost, .sessionData, .rule, .lease, .holdHigh]

/-- A cause is in a set. -/
def CauseSet.has (s : CauseSet) (c : Cause) : Bool := s.getLsbD (c.priority - 1)

/-- A set with a cause joined to it. -/
def CauseSet.join (s : CauseSet) (c : Cause) : CauseSet := s ||| BitVec.ofNat 8 (2 ^ (c.priority - 1))

/-- The cause of highest priority in a set (R130). -/
def CauseSet.primary (s : CauseSet) : Option Cause := causeOrder.find? (CauseSet.has s)

/-- The column of the wake matrix for a sleep depth (R133); no column where the depth is absent. -/
def Policy.column (p : Policy) (d : Option Depth) : CauseSet :=
  match d with
  | some .light => p.light
  | some .deep => p.deep
  | none => 0

/-- The length of a period class in ms (R72). -/
def periodLength (c : PeriodClass) : Nat :=
  match c with
  | .p0 => 100
  | .p1 => 1000
  | .p2 => 10000
  | .p3 => 60000

/-- The time base at the last expiry of a class. -/
def Periods.get (p : Periods) (c : PeriodClass) : Time :=
  match c with
  | .p0 => p.p0
  | .p1 => p.p1
  | .p2 => p.p2
  | .p3 => p.p3

/-- A class's timer started again. -/
def Periods.restart (p : Periods) (c : PeriodClass) (now : Time) : Periods :=
  match c with
  | .p0 => { p with p0 := now }
  | .p1 => { p with p1 := now }
  | .p2 => { p with p2 := now }
  | .p3 => { p with p3 := now }

/-- The high mark in bytes for a percentage (R119). -/
def highMarkBytes (percent : Nat) : Nat := 32768 * percent / 100

/-- The bytes that held-frame records hold together. -/
def bytesOf (q : List HeldFrame) : Nat := (q.map (fun h => h.bytes.length)).sum

/-- The level flag that a queue calls for (R119). -/
def levelOf (percent : Nat) (q : List HeldFrame) : Level :=
  if highMarkBytes percent ≤ bytesOf q then .above else .below

/-- The records of a queue that are IN_FLIGHT. -/
def inFlightCount (q : List HeldFrame) : Nat := (q.filter (fun h => h.delivery == .inFlight)).length

/-- The occupied indexes of a table with what they hold, in index order. -/
def occupied {α : Type} (l : List (Option α)) : List (Nat × α) :=
  l.zipIdx.filterMap (fun p => p.1.map (fun x => (p.2, x)))

/-- The item at an index of a table. -/
def lookup {α : Type} (l : List (Option α)) (i : Nat) : Option α := l.getD i none

/-- The item at an index of a table changed; an empty index stays empty. -/
def modifyAt {α : Type} (l : List (Option α)) (i : Nat) (f : α → α) : List (Option α) := l.modify i (Option.map f)

/-- Every item of a table changed, by its index. -/
def mapTable {α : Type} (l : List (Option α)) (f : α → α) : List (Option α) := l.map (Option.map f)

/-- An entry is an IPV4 or IPV6 entry. -/
def IdentityEntry.isAddress (e : IdentityEntry) : Bool := e.kind == .ipv4 || e.kind == .ipv6

/-- An entry is a GROUP4 or GROUP6 entry. -/
def IdentityEntry.isGroup (e : IdentityEntry) : Bool := e.kind == .group4 || e.kind == .group6

/-- The lease deadline has passed (R28). -/
def IdentityEntry.deadlinePassed (e : IdentityEntry) (now : Time) : Bool :=
  match e.lease with
  | some l => decide (l.seconds * 1000 ≤ elapsed now l.start)
  | none => false

/-- The lease margin point has been reached (R41); an EXPIRED entry has passed it. -/
def IdentityEntry.marginReached (e : IdentityEntry) (now : Time) (margin : Nat) : Bool :=
  match e.lease with
  | some l => e.state == .expired || decide (l.seconds * 1000 ≤ elapsed now l.start + margin * 1000)
  | none => false

/-- A session record is live at the classifier's step 4 (R59, R92). -/
def SessionState.live (s : SessionState) : Bool :=
  match s with
  | .ready | .probing | .heardData => true
  | .closed | .lost | .returned => false

/-- A READY session's due time has come (R97, R179): the time elapsed since last heard reaches the interval. -/
def Session.dueReached (s : Session) (now : Time) : Bool :=
  match s.nextDue, s.lastHeard with
  | some _, some h => s.state == .ready && decide (s.interval * 1000 ≤ elapsed now h)
  | _, _ => false

/-- A TIMING probe's deadline has come (R99, R179): the time elapsed since its settlement reaches the timeout. -/
def Session.probeTimerReached (s : Session) (now : Time) : Bool :=
  match s.deadline with
  | some d =>
    s.state == .probing && s.phase == .timing
      && decide (s.timeout * 1000 ≤ elapsed now (d - BitVec.ofNat 32 (s.timeout * 1000)))
  | none => false

/-- A report pending deadline has come and its report has not yet fallen due (R45). -/
def PendingReport.reached (r : PendingReport) (now : Time) : Bool := !r.due && decide (r.length ≤ elapsed now r.start)

end Sys2Proof.Machine
end

