-- ==== Sys2Proof/Machine/Layouts.lean ====
section
/-! DEFINITION. The byte layouts of what the device sends: frames out, notices, replies and station records (chapter 11). -/

namespace Sys2Proof.Machine

open Sys2Proof

/-- A bit as a number. -/
def bit (b : Bool) : Nat := if b then 1 else 0

/-- A level, flag or link state given as 0 or 1. -/
def flagByte (b : Bool) : Byte := byte (bit b)

/-- The 4 bytes of an absent time or count. -/
def absent4 : List Byte := [0xFF, 0xFF, 0xFF, 0xFF]

/-- A time, or its absence. -/
def optTime (t : Option Time) : List Byte :=
  match t with
  | some t => be32 t.toNat
  | none => absent4

/-- The next index or position; 0xFF for none. -/
def nextByte (n : Option Nat) : Byte :=
  match n with
  | some i => byte i
  | none => 0xFF

def Status.code (s : Status) : Byte :=
  match s with
  | .ok => 0
  | .wrongState => 1
  | .badField => 2
  | .badLength => 3
  | .noRoom => 4
  | .noEntry => 5
  | .duplicate => 6
  | .inUse => 7
  | .staleSession => 8
  | .incomplete => 9

def FrameOutcome.code (o : FrameOutcome) : Byte :=
  match o with
  | .none => 0
  | .taken => 1
  | .notTakenBusy => 2
  | .badCheck => 3
  | .short => 4
  | .unknownKind => 5

def FrameKind.code (k : FrameKind) : Byte :=
  match k with
  | .reply => 0x80
  | .notice => 0x81
  | .wait => 0x82
  | .empty => 0x83

def StandIn.code (s : StandIn) : Byte :=
  match s with
  | .attended => 0
  | .arming => 1
  | .standing => 2
  | .calling => 3
  | .returning => 4

def Reason.code (r : Reason) : Byte :=
  match r with
  | .powerUp => 0
  | .handedOver => 1
  | .called => 2
  | .takenBack => 3
  | .selfReturn => 4
  | .gaveUp => 5
  | .drained => 6
  | .cut => 7

def depthCode (d : Option Depth) : Byte :=
  match d with
  | some .light => 0
  | some .deep => 1
  | none => 0xFF

def causeCode (c : Option Cause) : Byte :=
  match c with
  | some c => byte c.priority
  | none => 0

def WakeOutcome.code (o : WakeOutcome) : Byte :=
  match o with
  | .none => 0
  | .claimed => 1
  | .self => 2
  | .selfReturn => 3
  | .lost => 4

def CallPhase.code (p : CallPhase) : Byte :=
  match p with
  | .none => 0
  | .asserting => 1
  | .gap => 2
  | .claim => 3

def EntryKind.code (k : EntryKind) : Byte :=
  match k with
  | .link => 0
  | .ipv4 => 1
  | .ipv6 => 2
  | .group4 => 3
  | .group6 => 4

def EntryState.code (s : EntryState) : Byte :=
  match s with
  | .active => 0
  | .ceded => 1
  | .expired => 2

def RuleAction.code (a : RuleAction) : Byte :=
  match a with
  | .discard => 0
  | .hold => 1
  | .wake => 2
  | .holdWake => 3
  | .echo => 4
  | .template _ => 5

def RuleAction.templateIndex (a : RuleAction) : Nat :=
  match a with
  | .template t => t
  | .discard | .hold | .wake | .holdWake | .echo => 0

def OverflowAction.code (a : OverflowAction) : Byte :=
  match a with
  | .discard => 0
  | .hold => 1
  | .wake => 2

def periodCode (c : PeriodClass) : Byte :=
  match c with
  | .p0 => 0
  | .p1 => 1
  | .p2 => 2
  | .p3 => 3

def SessionState.code (s : SessionState) : Byte :=
  match s with
  | .ready => 0
  | .probing => 1
  | .heardData => 2
  | .closed => 3
  | .lost => 4
  | .returned => 5

def atReturnCode (s : Option SessionState) : Byte :=
  match s with
  | some s => s.code
  | none => 0xFF

def ProbePhase.code (p : ProbePhase) : Byte :=
  match p with
  | .none => 0
  | .pending => 1
  | .queued => 2
  | .timing => 3

/-- A hold source: its code and an index byte. -/
def HoldSource.bytes (h : HoldSource) : List Byte :=
  match h with
  | .session n => [0, byte n]
  | .rule n => [1, byte n]
  | .byDefault => [2, 0]
  | .atReturn => [3, 0]

def levelCode (l : Level) : Byte :=
  match l with
  | .below => 0
  | .above => 1

def LinkRecord.code (r : LinkRecord) : Byte :=
  match r with
  | .linkUp => 0x05
  | .linkDown => 0x06
  | .portReset => 0x07

/-- A NOTICE body (section 11.5): 12 bytes. -/
def Notice.body (n : Notice) : List Byte :=
  match n with
  | .stateChanged lost time prev new reason =>
    [0, 0] ++ be16 lost ++ be32 time.toNat ++ [prev.code, new.code, reason.code, 0]
  | .linkChanged lost time up by' => [1, 0] ++ be16 lost ++ be32 time.toNat ++ [flagByte up, by'.code, 0, 0]

/-- A frame of the host link (section 11.1) with its check. -/
def hostFrame (kind tag outcome : Byte) (body : List Byte) : List Byte :=
  let h := [0xA6, kind, tag, outcome] ++ be16 body.length ++ body
  h ++ checkBytes h

/-- The bytes of a frame out. -/
def FrameOut.bytes (f : FrameOut) : List Byte := hostFrame f.kind.code f.tag f.outcome.code f.body

/-- The bytes of a record the device sends (section 11.6). -/
def StationOut.bytes (r : StationOut) : List Byte :=
  let h :=
    match r with
    | .txFrame frame => [0x5C, 0x41] ++ be16 frame.length ++ frame
    | .deliver arrival source frame =>
      [0x5C, 0x42] ++ be16 (6 + frame.length) ++ be32 arrival.toNat ++ source.bytes ++ frame
    | .ready room => [0x5C, 0x43] ++ be16 1 ++ [byte room]
  h ++ checkBytes h

/-- The records of a read in pieces that fit (R31, R67, R84, R95, R127): whole records while the body stays within 1600
bytes, used of which are taken by the rest of the body; and the index of the first that did not fit. -/
def pieces : Nat → List (Nat × List Byte) → List (List Byte) × Option Nat
  | _, [] => ([], none)
  | used, (i, r) :: rest =>
    if used + r.length ≤ 1600 then
      let p := pieces (used + r.length) rest
      (r :: p.1, p.2)
    else ([], some i)

/-- The body of a read in pieces (section 11.2): status, count, a part before the records, the records, the next index, a
part after it. -/
def piecesBody (before after : List Byte) (records : List (Nat × List Byte)) : List Byte :=
  let p := pieces (3 + before.length + after.length) records
  [Status.ok.code, byte p.1.length] ++ before ++ p.1.flatten ++ [nextByte p.2] ++ after

/-- The occupied indexes of a table from a start index on, each with its record. -/
def recordsFrom {α : Type} (start : Nat) (l : List (Option α)) (f : Nat → α → List Byte) : List (Nat × List Byte) :=
  ((occupied l).filter (fun p => decide (start ≤ p.1))).map (fun p => (p.1, f p.1 p.2))

/-- The PUT layout of an identity entry. -/
def entryPut (i : Nat) (e : IdentityEntry) : List Byte :=
  [byte i, e.kind.code] ++ be16 e.vlan
    ++ [byte e.link, byte (bit e.defend + 2 * bit e.answer + 4 * bit e.lease.isSome)]
    ++ be32 (match e.lease with | some l => l.seconds | none => 0) ++ e.addr

/-- The lease time remaining in ms at a moment (R31): 0 where the deadline has passed, absent without a lease. -/
def leaseRemaining (e : IdentityEntry) (now : Time) : List Byte :=
  match e.lease with
  | some l => if e.state = .expired then be32 0 else be32 (l.seconds * 1000 - elapsed now l.start)
  | none => absent4

/-- An IDENTITY LIST record (section 11.2). -/
def entryRecord (now : Time) (i : Nat) (e : IdentityEntry) : List Byte :=
  entryPut i e ++
    if e.kind = .link then zeros 20
    else
      [e.state.code, byte e.conflicts,
        byte (bit e.leaseMark + 2 * bit e.report.isSome + 4 * bit e.lastDefence.isSome), 0]
        ++ leaseRemaining e now ++ optTime e.lastDefence ++ be32 e.answers.toNat
        ++ optTime (e.report.map (fun r => later r.start r.length))

/-- The present match fields of a rule, in the order of section 11.2. -/
def matchBytes (m : MatchFields) : List Byte :=
  (match m.vlan with | some v => be16 v | none => [])
    ++ (match m.etherType with | some v => be16 v | none => [])
    ++ (match m.ipVersion with | some v => [byte v] | none => [])
    ++ (match m.ipProto with | some v => [byte v] | none => [])
    ++ (match m.source with
        | some p => [if p.addr.length = 4 then 4 else 6, byte p.bits] ++ p.addr
        | none => [])
    ++ (match m.destIndex with | some v => [byte v] | none => [])
    ++ (match m.ports with | some p => be16 p.1 ++ be16 p.2 | none => [])
    ++ (match m.tcpFlags with | some p => [p.1, p.2] | none => [])
    ++ (match m.pattern with
        | some p => [byte p.offset, byte p.bytes.length] ++ p.bytes ++ p.mask
        | none => [])

/-- The presence mask of a rule. -/
def presenceMask (m : MatchFields) : Nat :=
  bit m.vlan.isSome + 2 * bit m.etherType.isSome + 4 * bit m.ipVersion.isSome + 8 * bit m.ipProto.isSome
    + 16 * bit m.source.isSome + 32 * bit m.destIndex.isSome + 64 * bit m.ports.isSome
    + 128 * bit m.tcpFlags.isSome + 256 * bit m.pattern.isSome

/-- The rule layout of section 11.2. -/
def ruleBytes (r : Rule) : List Byte :=
  be16 (presenceMask r.fields)
    ++ [r.action.code, byte r.action.templateIndex, r.overflow.code, periodCode r.period]
    ++ be16 r.limit ++ matchBytes r.fields

/-- A RULE LIST record. -/
def ruleRecord (i : Nat) (r : Rule) : List Byte := [byte i] ++ ruleBytes r ++ be16 r.hits ++ be32 r.overflows

/-- The 8 bytes of a patch point. -/
def patchBytes (p : Patch) : List Byte :=
  match p with
  | .macFromSource => [0, 0, 0, 0, 0, 0, 0, 0]
  | .ipFromSource t v => [1, byte v, 0, 0] ++ be16 t ++ [0, 0]
  | .portFromSource t => [2, 0, 0, 0] ++ be16 t ++ [0, 0]
  | .copy s t len => [3, 0] ++ be16 s ++ be16 t ++ [byte len, 0]
  | .ip4Checksum t => [4, 0, 0, 0] ++ be16 t ++ [0, 0]
  | .transportChecksum t v proto =>
    [5, byte (v + (if proto = .tcp then 16 else 0)), 0, 0] ++ be16 t ++ [0, 0]

/-- A rule's action names a template index (R84). -/
def namesTemplate (i : Nat) (r : Rule) : Bool := r.action == .template i

/-- A TEMPLATE LIST record. -/
def templateRecord (rules : List Rule) (i : Nat) (t : Template) : List Byte :=
  [byte i] ++ be16 t.bytes.length ++ [byte t.patches.length] ++ (t.patches.map patchBytes).flatten ++ t.bytes
    ++ be32 t.built ++ be32 t.failed ++ [byte (rules.filter (namesTemplate i)).length]

/-- The total of template bytes stored (R78). -/
def storedBytes (l : List (Option Template)) : Nat := ((occupied l).map (fun p => p.2.bytes.length)).sum

/-- The PUT layout of a session record. -/
def sessionPutBytes (i : Nat) (x : Session) : List Byte :=
  [byte i, byte x.localIndex, byte x.remoteAddr.length, 0] ++ be16 x.localPort ++ be16 x.remotePort ++ x.nextHop
    ++ be32 x.sndNxt.toNat ++ be32 x.rcvNxt.toNat ++ be16 x.window ++ be16 x.interval
    ++ [byte x.timeout, byte x.limit] ++ be16 x.idleAge ++ x.remoteAddr

/-- A SESSION GET record. -/
def sessionRecord (i : Nat) (x : Session) : List Byte :=
  sessionPutBytes i x
    ++ [x.state.code, atReturnCode x.atReturn, byte x.outstanding, x.phase.code,
        byte (bit x.nextDue.isSome + 2 * bit x.deadline.isSome + 4 * bit x.lastHeard.isSome), 0]
    ++ optTime x.nextDue ++ optTime x.deadline ++ optTime x.lastHeard
    ++ be32 x.probesSent ++ be32 x.peerAcks ++ be32 x.peerProbes ++ be32 x.dataHeld ++ be32 x.outOfWindow

/-- The 12 bytes of the policy record. -/
def policyBytes (p : Policy) : List Byte :=
  [p.light, p.deep, match p.defaultAction with | .discard => 0 | .hold => 1,
    match p.overflow with | .dropNewest => 0 | .dropOldest => 1,
    byte p.highMark, byte p.wakeResponse, byte p.retries, byte p.claimWindow]
    ++ be16 p.leaseMargin ++ be16 p.answerLimit

/-- The 10 bytes of the wake record (section 11.3). -/
def wakeRecordBytes (r : WakeRecord) : List Byte :=
  [depthCode r.depth, causeCode r.primary, r.enabled, r.noted, byte r.attempts, r.outcome.code] ++ optTime r.firstTime

/-- The timer that runs in the present call phase (R140). -/
def phaseTimer (w : WakeUnit) : Option Timer :=
  match w.phase with
  | .none => none
  | .asserting => w.response
  | .gap => w.gap
  | .claim => w.claim

/-- The time left to the running timer of the call phase, in ms (R140). -/
def timeLeft (w : WakeUnit) (now : Time) : List Byte :=
  match phaseTimer w with
  | some t => be32 (t.length - elapsed now t.start)
  | none => absent4

/-- The 202 bytes of an evidence slot. -/
def evidenceBytes (e : Option Evidence) : List Byte :=
  match e with
  | none => zeros 202
  | some e =>
    [1, byte e.cause.priority, (match e.origin with | some i => byte i | none => 0xFF), 0]
      ++ be32 e.time.toNat ++ be16 e.length ++ e.bytes ++ zeros (192 - e.bytes.length)

/-- A held-frame summary (section 11.4). -/
def heldSummary (i : Nat) (h : HeldFrame) : List Byte :=
  [byte i] ++ h.source.bytes ++ [byte (bit h.kept + 2 * bit (h.delivery == .inFlight))] ++ be32 h.arrival.toNat
    ++ be16 h.vlan ++ be16 h.bytes.length

/-- The policy in force code of HOLD STATUS (R127). -/
def policyInForce (s : State) : Byte :=
  match s.controller.standIn with
  | .attended => 0xFF
  | .arming | .standing | .calling => match s.wake.policy.overflow with | .dropNewest => 0 | .dropOldest => 1
  | .returning => 0

/-- The 28 bytes of the HOLD STATUS summary (section 11.4). -/
def holdSummary (s : State) : List Byte :=
  let q := s.hold.queue
  let kept := q.filter (fun h => h.kept)
  [byte q.length] ++ be16 (bytesOf q) ++ [byte kept.length] ++ be16 (bytesOf kept)
    ++ [byte (inFlightCount q), byte s.hold.forgotten] ++ be16 (highMarkBytes s.wake.policy.highMark)
    ++ [levelCode s.hold.level, policyInForce s]
    ++ be32 s.counters.holdRefused ++ be32 s.counters.displaced ++ be32 s.counters.delivered
    ++ be32 s.counters.cutDiscarded

/-- The STATUS OK reply (section 11.2): 143 bytes. It carries the lost count at offset 21 as R183 and section 11.2 have
it, though R180 says that STATUS does not report it (assumption 27). -/
def statusBody (s : State) : List Byte :=
  [Status.ok.code] ++ be32 s.time.toNat
    ++ [s.controller.standIn.code, depthCode s.controller.depth, flagByte s.controller.divert,
        flagByte s.controller.drain, flagByte s.wake.hostupFiltered, flagByte s.wake.wakereq,
        flagByte s.port.linkUp, byte s.port.rxBuffer.length, byte s.port.txQueue.length,
        flagByte s.classifier.current.isSome, byte s.hold.queue.length]
    ++ be16 (bytesOf s.hold.queue) ++ [byte (inFlightCount s.hold.queue), levelCode s.hold.level]
    ++ [byte s.host.notices.length] ++ be16 s.host.lost
    ++ (counterOrder.map (fun c => be32 (s.counters.get c))).flatten

end Sys2Proof.Machine
end

