-- ==== Sys2Proof/Config.lean ====
section
/-! DEFINITION. The free values: what the manual leaves open while the device goes on. None has a body, so no proof can lean on one. -/

namespace Sys2Proof

/-- The order in which two reports of two blocks at one event are recorded: R132 allows either.
Applied to the state's count of free values taken (assumption 3). -/
opaque Config.reportOrder : Nat → Bool

/-- Which of several own events that are ready at the same moment is taken first: R179 allows any.
Applied to the state's count of free values taken (assumption 2). -/
opaque Config.eventChoice : Nat → Nat

/-- The answers-given count of an identity entry after a rise from 2^32 - 1: R28 and R37 state none.
Applied to the state's count of free values taken (assumption 4). -/
opaque Config.answersPastEnd : Nat → BitVec 32

/-- The priority and drop-eligible bits of a VLAN tag that the device writes of its own accord:
R45, R46 and R98 state the tag's VLAN only (assumption 5). -/
opaque Config.tagControl : BitVec 4

end Sys2Proof
end

