-- ==== Sys2Proof/Machine/Frame.lean ====
section
/-! DEFINITION. How the classifier reads a frame: the Ethernet layer, IP, and the transport fields (R53 to R55). -/

namespace Sys2Proof.Machine

open Sys2Proof

/-- The fields of a well-formed IP frame (R54, R55). payload is the IP payload; for IPv6 it begins after a skipped
hop-by-hop header. fragment and more are the IPv4 fragment offset and more-fragments flag, 0 and false for IPv6. -/
structure IpFields where
  version : Nat
  proto : Nat
  src : Addr
  dst : Addr
  hopLimit : Nat
  fragment : Nat
  more : Bool
  payload : List Byte
  deriving DecidableEq, Repr

/-- The transport fields of R55. -/
inductive Transport where
  | tcp (srcPort dstPort : Nat) (seq ack : Seq) (flags : Byte) (window : Nat)
  | udp (srcPort dstPort : Nat)
  deriving DecidableEq, Repr

/-- Bytes 0 to 5 of a frame (R53). -/
def dstMac (f : List Byte) : Mac := slice f 0 6

/-- Bytes 6 to 11 of a frame (R53). -/
def srcMac (f : List Byte) : Mac := slice f 6 6

/-- A frame is tagged when its type field is 0x8100 (R53). -/
def isTagged (f : List Byte) : Bool := at2 f 12 == 0x8100

/-- The 4 tag bytes of a tagged frame; nothing for an untagged one (R35, R85). -/
def tagBytes (f : List Byte) : List Byte := if isTagged f then slice f 12 4 else []

/-- The frame's VLAN (R53): the low 12 bits of bytes 14 and 15, or 0 when untagged. -/
def frameVlan (f : List Byte) : Nat := if isTagged f then at2 f 14 % 4096 else 0

/-- The frame's EtherType, after any tag (R53). -/
def etherType (f : List Byte) : Nat := if isTagged f then at2 f 16 else at2 f 12

/-- The layer data: what follows the EtherType (R53). -/
def layerData (f : List Byte) : List Byte := if isTagged f then f.drop 18 else f.drop 14

/-- The length test of step 1 (R53). -/
def lengthOk (f : List Byte) : Bool :=
  decide (14 ≤ f.length) && decide (f.length ≤ 1522) && (!isTagged f || decide (18 ≤ f.length))

/-- The VLAN of a held frame (R114): as R53 reads it, 0 where the frame is too short to carry a tag (assumption 23). -/
def heldVlan (f : List Byte) : Nat := if 16 ≤ f.length then frameVlan f else 0

/-- The frame without its tag: the view of R86. -/
def untagged (f : List Byte) : List Byte := if isTagged f then f.take 12 ++ f.drop 16 else f

/-- The IPv4 fields of layer data, where well-formed (R54). -/
def readIp4 (d : List Byte) : Option IpFields :=
  let hl := at1 d 0 % 16 * 4
  let total := at2 d 2
  if 20 ≤ d.length ∧ at1 d 0 / 16 = 4 ∧ 20 ≤ hl ∧ hl ≤ d.length ∧ hl ≤ total ∧ total ≤ d.length then
    some
      { version := 4, proto := at1 d 9, src := slice d 12 4, dst := slice d 16 4, hopLimit := at1 d 8,
        fragment := at2 d 6 % 8192, more := at2 d 6 / 8192 % 2 == 1, payload := (d.take total).drop hl }
  else none

/-- The IPv6 fields of layer data, where well-formed, with one whole hop-by-hop header skipped (R54). -/
def readIp6 (d : List Byte) : Option IpFields :=
  let plen := at2 d 4
  if 40 ≤ d.length ∧ at1 d 0 / 16 = 6 ∧ 40 + plen ≤ d.length then
    let p := slice d 40 plen
    let hop := (at1 p 1 + 1) * 8
    let skip := at1 d 6 = 0 ∧ 2 ≤ p.length ∧ hop ≤ p.length
    some
      { version := 6, proto := if skip then at1 p 0 else at1 d 6, src := slice d 8 16, dst := slice d 24 16,
        hopLimit := at1 d 7, fragment := 0, more := false, payload := if skip then p.drop hop else p }
  else none

/-- The IP fields of a frame; none for a non-IP frame and for one not well-formed (R54). -/
def readIp (f : List Byte) : Option IpFields :=
  if etherType f = 0x0800 then readIp4 (layerData f)
  else if etherType f = 0x86DD then readIp6 (layerData f)
  else none

/-- The transport fields of a well-formed IP frame (R55). -/
def ipTransport (ip : IpFields) : Option Transport :=
  let p := ip.payload
  if ip.fragment ≠ 0 then none
  else if ip.proto = 6 then
    if 20 ≤ p.length ∧ 5 ≤ at1 p 12 / 16 ∧ at1 p 12 / 16 * 4 ≤ p.length then
      some (.tcp (at2 p 0) (at2 p 2) (BitVec.ofNat 32 (at4 p 4)) (BitVec.ofNat 32 (at4 p 8)) (p.getD 13 0) (at2 p 14))
    else none
  else if ip.proto = 17 then
    if 8 ≤ p.length then some (.udp (at2 p 0) (at2 p 2)) else none
  else none

/-- The transport fields of a frame (R55). -/
def readTransport (f : List Byte) : Option Transport := (readIp f).bind ipTransport

/-- The transport payload of a well-formed IP frame (R55). -/
def ipTransportPayload (ip : IpFields) : List Byte :=
  match ipTransport ip with
  | some (.tcp ..) => ip.payload.drop (at1 ip.payload 12 / 16 * 4)
  | some (.udp ..) => ip.payload.drop 8
  | none => ip.payload

/-- The transport payload of a frame: the layer data for a non-IP frame (R55). -/
def transportPayload (f : List Byte) : List Byte :=
  match readIp f with
  | some ip => ipTransportPayload ip
  | none => layerData f

/-- The source port of a frame with TCP or UDP transport fields. -/
def sourcePort (f : List Byte) : Option Nat :=
  match readTransport f with
  | some (.tcp p ..) => some p
  | some (.udp p _) => some p
  | none => none

/-- The destination port of a frame with TCP or UDP transport fields. -/
def destPort (f : List Byte) : Option Nat :=
  match readTransport f with
  | some (.tcp _ p ..) => some p
  | some (.udp _ p) => some p
  | none => none

/-- The TCP flags byte of a frame with TCP transport fields. -/
def tcpFlags (f : List Byte) : Option Byte :=
  match readTransport f with
  | some (.tcp _ _ _ _ fl _) => some fl
  | _ => none

/-- The pseudo-header of an upper-layer checksum over IPv6 (R34, R88). -/
def pseudo6 (src dst : Addr) (len proto : Nat) : List Byte := src ++ dst ++ be32 len ++ [0, 0, 0, byte proto]

/-- The pseudo-header of an upper-layer checksum over IPv4 (R88). -/
def pseudo4 (src dst : Addr) (len proto : Nat) : List Byte := src ++ dst ++ [0, byte proto] ++ be16 len

/-- The ICMPv6 checksum of a received message is correct (R34). -/
def icmp6Correct (ip : IpFields) : Bool :=
  sumCorrect (pseudo6 ip.src ip.dst ip.payload.length 58 ++ ip.payload)

/-- The responder kinds of R33. -/
inductive ResponderKind where
  | arp | solicitation | advertisement | igmpQuery | mldQuery
  deriving DecidableEq, Repr

/-- The responder kind of a frame (R33, R60), recognised before any check. -/
def responderKind (f : List Byte) : Option ResponderKind :=
  if etherType f = 0x0806 then some .arp
  else
    match readIp f with
    | none => none
    | some ip =>
      if ip.payload.length = 0 then none
      else if ip.version = 6 ∧ ip.proto = 58 then
        if at1 ip.payload 0 = 135 then some .solicitation
        else if at1 ip.payload 0 = 136 then some .advertisement
        else if at1 ip.payload 0 = 130 then some .mldQuery
        else none
      else if ip.version = 4 ∧ ip.proto = 2 ∧ at1 ip.payload 0 = 0x11 then some .igmpQuery
      else none

/-- The check of an ARP packet (R33, R34): its 28 bytes and its first five fields. -/
def arpOk (d : List Byte) : Bool :=
  decide (28 ≤ d.length) && at2 d 0 == 1 && at2 d 2 == 0x0800 && at1 d 4 == 6 && at1 d 5 == 4
    && (at2 d 6 == 1 || at2 d 6 == 2)

/-- The check of a neighbour solicitation or advertisement (R33). -/
def neighbourOk (ip : IpFields) : Bool :=
  ip.hopLimit == 255 && at1 ip.payload 1 == 0 && decide (24 ≤ ip.payload.length) && icmp6Correct ip

/-- The check of an IGMP query (R33). -/
def igmpOk (ip : IpFields) : Bool :=
  (ip.payload.length == 8 || decide (12 ≤ ip.payload.length)) && sumCorrect ip.payload

/-- The check of an MLD query (R33). R33 names no code for it, so the code 0 of its layout in R34 is not checked
(assumption 26). -/
def mldOk (ip : IpFields) : Bool :=
  (ip.payload.length == 24 || decide (28 ≤ ip.payload.length)) && icmp6Correct ip

/-- The first target link-layer address option of a neighbour message (R34): options are read in order until one of
length 0 or one that runs past the end. The fuel is the number of option bytes, more than there are options. -/
def linkLayerOption : Nat → List Byte → Option Mac
  | 0, _ => none
  | fuel + 1, o =>
    let len := at1 o 1 * 8
    if o.length < 2 ∨ len = 0 ∨ o.length < len then none
    else if at1 o 0 = 2 then some (slice o 2 6)
    else linkLayerOption fuel (o.drop len)

/-- The MAC that a neighbour advertisement names (R38): its option's, or its Ethernet source. -/
def advertisedMac (f : List Byte) (ip : IpFields) : Mac :=
  (linkLayerOption ip.payload.length (ip.payload.drop 24)).getD (srcMac f)

/-- The maximum response time of an IGMP query in ms (R43). -/
def igmpResponse (code : Nat) : Nat :=
  if code = 0 then 10000
  else if code < 128 then code * 100
  else (code % 16 + 16) * 2 ^ (code / 16 % 8 + 3) * 100

/-- The maximum response time of an MLD query in ms (R43). -/
def mldResponse (code : Nat) : Nat :=
  if code < 32768 then code else (code % 4096 + 4096) * 2 ^ (code / 4096 % 8 + 3)

/-- A group MAC for an IPv4 group: 01:00:5E and the low 23 bits (R45, R57). -/
def groupMac4 (a : Addr) : Mac := [0x01, 0x00, 0x5E, byte (at1 a 1 % 128), byte (at1 a 2), byte (at1 a 3)]

/-- A group MAC for an IPv6 group: 33:33 and the low 32 bits (R45, R57). -/
def groupMac6 (a : Addr) : Mac := [0x33, 0x33] ++ slice a 12 4

/-- The solicited-node MAC of an IPv6 address: 33:33:FF and the low 24 bits (R57). -/
def solicitedMac (a : Addr) : Mac := [0x33, 0x33, 0xFF] ++ slice a 13 3

/-- The Ethernet broadcast address. -/
def broadcastMac : Mac := List.replicate 6 0xFF

/-- The all-nodes address ff02::1. -/
def allNodes : Addr := [0xFF, 0x02] ++ zeros 13 ++ [1]

/-- 33:33:00:00:00:01, the MAC of the all-nodes group. -/
def allNodesMac : Mac := [0x33, 0x33, 0, 0, 0, 1]

/-- 01:00:5E:00:00:01, the MAC of the all-hosts group. -/
def allHostsMac : Mac := [0x01, 0x00, 0x5E, 0, 0, 1]

end Sys2Proof.Machine
end

