-- ==== Sys2Proof/Machine/Build.lean ====
section
/-! DEFINITION. The frames the part builds: address answers and announcements, membership reports, echo replies, session segments,
and the answers made from templates. -/

namespace Sys2Proof.Machine

open Sys2Proof

/-- An Ethernet frame: destination, source, tag bytes (none or four), EtherType, layer data. -/
def ethernet (dst src : Mac) (tag : List Byte) (kind : Nat) (data : List Byte) : List Byte :=
  dst ++ src ++ tag ++ be16 kind ++ data

/-- The tag the device writes of its own accord for a VLAN: none for VLAN 0 (R45, R46, R98). Its priority and
drop-eligible bits are stated nowhere (assumption 5). -/
def ownTag (vlan : Nat) : List Byte :=
  if vlan = 0 then [] else [0x81, 0x00] ++ be16 (Config.tagControl.toNat * 4096 + vlan)

/-- An IPv4 header without options (R69, R98), its checksum computed. -/
def ip4Header (ttl proto : Nat) (src dst : Addr) (len : Nat) : List Byte :=
  let h := [0x45, 0] ++ be16 (20 + len) ++ [0, 0, 0, 0, byte ttl, byte proto, 0, 0] ++ src ++ dst
  overwrite h 10 (be16 (checksum h))

/-- The 24-byte IPv4 header of a membership report (R34): time-to-live 1, protocol 2, router alert option. -/
def reportHeader4 (src dst : Addr) (len : Nat) : List Byte :=
  let h := [0x46, 0] ++ be16 (24 + len) ++ [0, 0, 0, 0, 1, 2, 0, 0] ++ src ++ dst ++ [0x94, 0x04, 0, 0]
  overwrite h 10 (be16 (checksum h))

/-- An IPv6 header with traffic class and flow label 0. -/
def ip6Header (next hop : Nat) (src dst : Addr) (len : Nat) : List Byte :=
  [0x60, 0, 0, 0] ++ be16 len ++ [byte next, byte hop] ++ src ++ dst

/-- The hop-by-hop header of an IPv6 report (R34). -/
def routerAlert6 : List Byte := [58, 0, 0x05, 0x02, 0, 0, 0x01, 0]

/-- An ICMPv6 message with the checksum of R34 written over bytes 2 and 3. -/
def icmp6Message (src dst : Addr) (m : List Byte) : List Byte :=
  overwrite m 2 (be16 (checksum (pseudo6 src dst m.length 58 ++ m)))

/-- An IGMP or ICMP message with the checksum of R34 written over bytes 2 and 3. -/
def icmpMessage (m : List Byte) : List Byte := overwrite m 2 (be16 (checksum m))

/-- An ARP packet (R34). -/
def arpPacket (op : Nat) (sha spa tha tpa : List Byte) : List Byte :=
  [0, 1, 0x08, 0, 6, 4] ++ be16 op ++ sha ++ spa ++ tha ++ tpa

/-- The ARP announcement of an IPV4 entry (R46). -/
def arpAnnouncement (mac : Mac) (vlan : Nat) (addr : Addr) : List Byte :=
  ethernet broadcastMac mac (ownTag vlan) 0x0806 (arpPacket 1 mac addr (zeros 6) addr)

/-- A neighbour advertisement, IPv6 header and message (R34): hop limit 255 and one option naming the MAC. -/
def advertisement (flags : Nat) (mac : Mac) (addr dst : Addr) : List Byte :=
  let m := [136, 0, 0, 0, byte flags, 0, 0, 0] ++ addr ++ [2, 1] ++ mac
  ip6Header 58 255 addr dst 32 ++ icmp6Message addr dst m

/-- The unsolicited neighbour advertisement of an IPV6 entry (R46): override set, solicited clear. -/
def unsolicited (mac : Mac) (vlan : Nat) (addr : Addr) : List Byte :=
  ethernet allNodesMac mac (ownTag vlan) 0x86DD (advertisement 0x20 mac addr allNodes)

/-- The ARP reply of R35 to a request f. -/
def arpReply (f : List Byte) (mac : Mac) (addr : Addr) : List Byte :=
  let d := layerData f
  ethernet (srcMac f) mac (tagBytes f) 0x0806 (arpPacket 2 mac addr (slice d 8 6) (slice d 14 4))

/-- The neighbour advertisement of R36 in answer to a solicitation f from src; src unspecified is a
duplicate-address probe. -/
def solicitedAnswer (f : List Byte) (src : Addr) (mac : Mac) (addr : Addr) : List Byte :=
  if allZero src then
    ethernet allNodesMac mac (tagBytes f) 0x86DD (advertisement 0x20 mac addr allNodes)
  else ethernet (srcMac f) mac (tagBytes f) 0x86DD (advertisement 0x60 mac addr src)

/-- A membership report for an IPv4 group (R34, R45). -/
def report4 (form : ReportForm) (mac : Mac) (vlan : Nat) (src group : Addr) : List Byte :=
  match form with
  | .short =>
    let m := icmpMessage ([0x16, 0, 0, 0] ++ group)
    ethernet (groupMac4 group) mac (ownTag vlan) 0x0800 (reportHeader4 src group m.length ++ m)
  | .extended =>
    let m := icmpMessage ([0x22, 0, 0, 0, 0, 0, 0, 1, 2, 0, 0, 0] ++ group)
    let dst : Addr := [224, 0, 0, 22]
    ethernet (groupMac4 dst) mac (ownTag vlan) 0x0800 (reportHeader4 src dst m.length ++ m)

/-- A membership report for an IPv6 group (R34, R45). -/
def report6 (form : ReportForm) (mac : Mac) (vlan : Nat) (src group : Addr) : List Byte :=
  match form with
  | .short =>
    let m := icmp6Message src group ([131, 0, 0, 0, 0, 0, 0, 0] ++ group)
    ethernet (groupMac6 group) mac (ownTag vlan) 0x86DD
      (ip6Header 0 1 src group (8 + m.length) ++ routerAlert6 ++ m)
  | .extended =>
    let dst : Addr := [0xFF, 0x02] ++ zeros 13 ++ [0x16]
    let m := icmp6Message src dst ([143, 0, 0, 0, 0, 0, 0, 1, 2, 0, 0, 0] ++ group)
    ethernet (groupMac6 dst) mac (ownTag vlan) 0x86DD
      (ip6Header 0 1 src dst (8 + m.length) ++ routerAlert6 ++ m)

/-- The echo reply of R69 to a request f whose IP fields are ip. -/
def echoReply (f : List Byte) (ip : IpFields) (mac : Mac) : List Byte :=
  let data := ip.payload.drop 4
  if ip.version = 4 then
    let m := icmpMessage ([0, 0, 0, 0] ++ data)
    ethernet (srcMac f) mac (tagBytes f) 0x0800 (ip4Header 64 1 ip.dst ip.src m.length ++ m)
  else
    let m := icmp6Message ip.dst ip.src ([129, 0, 0, 0] ++ data)
    ethernet (srcMac f) mac (tagBytes f) 0x86DD (ip6Header 58 64 ip.dst ip.src m.length ++ m)

/-- A TCP segment of the session keeper (R98): no options, no data, ACK alone set. -/
def tcpHeader (sport dport : Nat) (seq ack : Seq) (window : Nat) : List Byte :=
  be16 sport ++ be16 dport ++ be32 seq.toNat ++ be32 ack.toNat ++ [0x50, 0x10] ++ be16 window ++ [0, 0, 0, 0]

/-- The frame of R98 for a session whose local entry has the VLAN and address given and whose LINK entry has the
MAC given. -/
def sessionSegment (s : Session) (mac : Mac) (vlan : Nat) (localAddr : Addr) (seq : Seq) : List Byte :=
  let h := tcpHeader s.localPort s.remotePort seq s.rcvNxt s.window
  if localAddr.length = 4 then
    let t := overwrite h 16 (be16 (checksum (pseudo4 localAddr s.remoteAddr 20 6 ++ h)))
    ethernet s.nextHop mac (ownTag vlan) 0x0800 (ip4Header 64 6 localAddr s.remoteAddr 20 ++ t)
  else
    let t := overwrite h 16 (be16 (checksum (pseudo6 localAddr s.remoteAddr 20 6 ++ h)))
    ethernet s.nextHop mac (ownTag vlan) 0x86DD (ip6Header 6 64 localAddr s.remoteAddr 20 ++ t)

/-- The segment start of a TRANSPORT_CHECKSUM point (R82). -/
def segmentStart (target version headerWords : Nat) : Nat :=
  if version = 4 then target + 4 * headerWords else target + 40

/-- The checksum field of a TRANSPORT_CHECKSUM point (R82). -/
def checksumField (proto : ChecksumProto) (c : Nat) : Nat :=
  match proto with
  | .udp => c + 6
  | .tcp => c + 16

/-- The protocol number of a TRANSPORT_CHECKSUM point (R88). -/
def protoNumber (proto : ChecksumProto) : Nat :=
  match proto with
  | .udp => 17
  | .tcp => 6

/-- The pseudo-header of R88, its addresses read from the copy. -/
def templatePseudo (copy : List Byte) (t version len proto : Nat) : List Byte :=
  if version = 4 then pseudo4 (slice copy (t + 12) 4) (slice copy (t + 16) 4) len proto
  else pseudo6 (slice copy (t + 8) 16) (slice copy (t + 24) 16) len proto

/-- One patch point applied to the copy, with its recorded header length, for the received frame f; none where it
cannot be applied (R80, R86 to R88). -/
def applyPatch (f : List Byte) (p : Patch) (headerWords : Nat) (copy : List Byte) : Option (List Byte) :=
  match p with
  | .macFromSource => some (overwrite copy 0 (srcMac f))
  | .ipFromSource t v =>
    match readIp f with
    | some ip => if ip.version = v then some (overwrite copy t ip.src) else none
    | none => none
  | .portFromSource t => (sourcePort f).map (fun p => overwrite copy t (be16 p))
  | .copy s t len =>
    if s + len ≤ (untagged f).length then some (overwrite copy t (slice (untagged f) s len)) else none
  | .ip4Checksum t =>
    let c0 := overwrite copy (t + 10) [0, 0]
    some (overwrite c0 (t + 10) (be16 (checksum (slice c0 t (4 * headerWords)))))
  | .transportChecksum t v proto =>
    let c := segmentStart t v headerWords
    let c0 := overwrite copy (checksumField proto c) [0, 0]
    let seg := c0.drop c
    let sum := checksum (templatePseudo c0 t v seg.length (protoNumber proto) ++ seg)
    let written := if proto = .udp ∧ sum = 0 then 65535 else sum
    some (overwrite c0 (checksumField proto c) (be16 written))

/-- The patch points applied in list order; none at the first that cannot be applied (R85, R89). -/
def applyPatches (f : List Byte) : List (Patch × Nat) → List Byte → Option (List Byte)
  | [], copy => some copy
  | (p, h) :: rest, copy => (applyPatch f p h copy).bind (applyPatches f rest)

/-- The answer of a template for a received frame and the MAC of its LINK entry; none where the build fails
(R85, R89). -/
def buildTemplate (t : Template) (f : List Byte) (mac : Mac) : Option (List Byte) :=
  (applyPatches f (t.patches.zip t.headerWords) t.bytes).map fun copy =>
    let c := overwrite copy 6 mac
    c.take 12 ++ tagBytes f ++ c.drop 12

end Sys2Proof.Machine
end

