-- ==== Sys2Proof/Machine/Ops.lean ====
section
/-! DEFINITION. The operations that several commands share: counting, notices and replies, the change of the stand-in state, offers to
the transmit queue, cause reports and the calling sequence, and the tables as a classification reads them. -/

namespace Sys2Proof.Machine

open Sys2Proof

/-! Counters. -/

/-- A device counter raised by n (R180). -/
def count (c : Counter) (n : Nat) (s : State) : State := { s with counters := s.counters.add c n }

/-! The host link port. -/

/-- The lost count that a notice would carry, put into the notice's layout. -/
def stateNotice (s : State) (new : StandIn) (reason : Reason) : Notice :=
  .stateChanged s.host.lost s.time s.controller.standIn new reason

/-- The LINK_CHANGED notice of R160. -/
def linkNotice (s : State) (up : Bool) (record : LinkRecord) : Notice := .linkChanged s.host.lost s.time up record

/-- A notice queued (R171): at the tail with room for it, carrying the lost count, which becomes 0; otherwise lost and
counted. ATTN is high from then on (R172). -/
def queueNotice (n : Notice) (s : State) : State :=
  if s.host.notices.length < 16 then
    { s with host := { s.host with notices := s.host.notices ++ [n], lost := 0, attn := true } }
  else { s with host := { s.host with lost := satAdd 65535 s.host.lost 1 } }

/-- A reply produced into the reply slot (R168); ATTN is high (R172). -/
def produceReply (tag : Byte) (body : List Byte) (s : State) : State :=
  { s with host := { s.host with reply := some { tag := tag, body := body }, attn := true } }

/-- The level of ATTN that R172 gives for the port's contents. -/
def attnLevel (h : HostPort) : Bool := h.reply.isSome || !h.notices.isEmpty

/-! The stand-in controller. -/

/-- A change of the stand-in state (R2, R3): DIVERT follows the state, and one STATE_CHANGED notice is queued. -/
def changeState (new : StandIn) (reason : Reason) (s : State) : State :=
  let s1 := queueNotice (stateNotice s new reason) s
  { s1 with controller := { s1.controller with standIn := new, divert := new != .attended } }

/-- The conditions of R21 at which a return ends DRAINED. -/
def drainComplete (s : State) : Bool :=
  s.controller.standIn == .returning && s.hold.queue.isEmpty && s.port.rxBuffer.isEmpty && s.classifier.current.isNone

/-- The drain flag cleared and the state ATTENDED (R21, R22). -/
def endReturn (reason : Reason) (s : State) : State :=
  changeState .attended reason { s with controller := { s.controller with drain := false } }

/-- The end of a return whose conditions hold (R21). -/
def checkDrained (s : State) : State := if drainComplete s then endReturn .drained s else s

/-! The transmit queue. -/

/-- What becomes of an offered frame (R153). -/
inductive Offer where
  | accepted | dropped | deferred
  deriving DecidableEq, Repr

/-- The decision of R153, by the stand-in state, the kind and the room. -/
def offerResult (kind : TxKind) (s : State) : Offer :=
  if s.controller.standIn.serving then
    if s.port.txQueue.length < 8 then .accepted
    else
      match kind with
      | .answer | .ack => .dropped
      | .announce | .probe | .report => .deferred
  else .dropped

/-- A record sent on the station link. -/
def sendRecord (r : StationOut) (s : State) : State := { s with port := { s.port with sent := s.port.sent ++ [r] } }

/-- A frame offered to the transmit queue (R153): accepted at the tail and sent as TX_FRAME, dropped and counted under
its kind, or deferred. -/
def offerTx (kind : TxKind) (owner : TxOwner) (frame : List Byte) (s : State) : State :=
  match offerResult kind s with
  | .accepted =>
    sendRecord (.txFrame frame)
      { s with port := { s.port with txQueue := s.port.txQueue ++ [{ kind := kind, owner := owner, frame := frame }] } }
  | .dropped => count (.dropped kind) 1 s
  | .deferred => s

/-- A READY record with the present receive room (R152). -/
def sendReady (s : State) : State := sendRecord (.ready (6 - s.port.rxBuffer.length)) s

/-! The calling sequence. -/

/-- A timer started now. -/
def startTimer (s : State) (length : Nat) : Option Timer := some { start := s.time, length := length }

/-- A wake attempt begun (R143, R145, R146): attempts rise by 1, to 8 at most, WAKEREQ is asserted and the wake-response
timer starts. -/
def startAttempt (s : State) : State :=
  { s with
    wake :=
      { s.wake with
        record := { s.wake.record with attempts := satAdd 8 s.wake.record.attempts 1 }
        wakereq := true
        response := startTimer s (s.wake.policy.wakeResponse * 1000)
        gap := none
        claim := none
        phase := .asserting } }

/-- The claim window started (R143 to R147): WAKEREQ is low and the other timers stopped. -/
def startClaim (s : State) : State :=
  { s with
    wake :=
      { s.wake with
        wakereq := false
        response := none
        gap := none
        claim := startTimer s (s.wake.policy.claimWindow * 1000)
        phase := .claim } }

/-- The entry to CALLING at the wake unit (R143): attempts 0, then by the filtered HOSTUP level. -/
def beginCalling (s : State) : State :=
  let s1 := { s with wake := { s.wake with record := { s.wake.record with attempts := 0 } } }
  if s.wake.hostupFiltered then
    if s.wake.claim.isSome then { s1 with wake := { s1.wake with phase := .claim } } else startClaim s1
  else startAttempt s1

/-- The change to CALLING with the calling sequence it begins (R11, R13). -/
def enterCalling (s : State) : State := beginCalling (changeState .calling .called s)

/-! Cause reports. -/

/-- A cause report (R129). -/
structure Report where
  cause : Cause
  origin : Option Nat
  frame : Option (List Byte)
  deriving DecidableEq, Repr

/-- The wake matrix enables the cause at the depth of the stand-in (R130 step 3). -/
def causeEnabled (w : WakeUnit) (c : Cause) : Bool := (w.policy.column w.record.depth).has c

/-- What a slot captures of a report (R134). -/
def evidenceOf (r : Report) (now : Time) : Evidence :=
  { cause := r.cause, origin := r.origin, time := now, length := (r.frame.getD []).length,
    bytes := (r.frame.getD []).take 192 }

/-- Evidence captured while the lock is clear (R134): slot A first, then slot B, which sets the lock. -/
def capture (e : Evidence) (w : WakeUnit) : WakeUnit :=
  if w.slotA.isNone then { w with slotA := some e }
  else if w.slotB.isNone then { w with slotB := some e, lock := true }
  else w

/-- The enabled part of step 3 of R130: the enabled set, the first enabled cause time and the primary cause. -/
def enableCause (c : Cause) (now : Time) (r : WakeRecord) : WakeRecord :=
  { r with
    enabled := r.enabled.join c
    firstTime := some (r.firstTime.getD now)
    primary := (r.enabled.join c).primary }

/-- A report recorded by the wake unit (R130, steps 1 to 3). -/
def recordCause (r : Report) (now : Time) (w : WakeUnit) : WakeUnit :=
  let noted := { w.record with noted := w.record.noted.join r.cause }
  let w1 := { w with uncaptured := if w.lock then satAdd 65535 w.uncaptured 1 else w.uncaptured }
  if causeEnabled w r.cause then
    let w2 := { w1 with record := enableCause r.cause now noted }
    if w.lock then w2 else capture (evidenceOf r now) w2
  else { w1 with record := noted }

/-- A cause report (R129 to R131): recorded in ARMING, STANDING and CALLING only; an enabled cause recorded in STANDING
enters CALLING. -/
def reportCause (r : Report) (s : State) : State :=
  if s.controller.standIn.serving then
    let s1 := { s with wake := recordCause r s.time s.wake }
    if causeEnabled s.wake r.cause && s.controller.standIn == .standing then enterCalling s1 else s1
  else s

/-- Two blocks' reports at one event, each block's own in its own order, in an order between the blocks that a free
value decides (R132, assumption 3). The fuel is the number of reports. -/
def mergeReports : Nat → List Report → List Report → Nat → List Report × Nat
  | 0, xs, ys, n => (xs ++ ys, n)
  | _ + 1, [], ys, n => (ys, n)
  | _ + 1, x :: xs, [], n => (x :: xs, n)
  | fuel + 1, x :: xs, y :: ys, n =>
    if Config.reportOrder n then
      let m := mergeReports fuel xs (y :: ys) (n + 1)
      (x :: m.1, m.2)
    else
      let m := mergeReports fuel (x :: xs) ys (n + 1)
      (y :: m.1, m.2)

/-- The reports of a list made one after another. -/
def reportAll (rs : List Report) (s : State) : State := rs.foldl (fun s r => reportCause r s) s

/-- The reports of two blocks at one event (R132). -/
def reportTwo (xs ys : List Report) (s : State) : State :=
  let m := mergeReports (xs.length + ys.length) xs ys s.freeCount
  reportAll m.1 { s with freeCount := m.2 }

/-! The end of arming. -/

/-- The items of the announcement list not yet settled: those outside the transmit queue and those of this build in
it (R8). -/
def unsettled (s : State) : Nat :=
  s.responder.list.length
    + (s.port.txQueue.filter (fun t =>
        match t.owner with
        | .listItem b _ => b == s.responder.build
        | _ => false)).length

/-- The body of the HAND OVER reply (R10, section 11.2). -/
def handOverReply (linkDown : Bool) (s : State) : List Byte :=
  [0, if linkDown then 1 else 0, byte s.responder.settledDone, byte s.responder.settledRefused] ++ be32 s.time.toNat

/-- The reply of the request in flight, which is then no longer in flight (R10). -/
def replyInFlight (body : List Byte) (s : State) : State :=
  match s.host.inFlight with
  | some tag => produceReply tag body { s with host := { s.host with inFlight := none } }
  | none => s

/-- The end of arming (R10, R11): the reply, the change to STANDING with the claim window stopped, and CALLING at once
where the enabled set is not empty. -/
def endArming (linkDown : Bool) (s : State) : State :=
  let s1 := changeState .standing .handedOver (replyInFlight (handOverReply linkDown s) s)
  let s2 := { s1 with wake := { s1.wake with claim := none, phase := .none } }
  if s2.wake.record.enabled = 0 then s2 else enterCalling s2

/-- Arming ends, with the link UP, at the event that leaves no unsettled item (R8, R40). -/
def checkArmingEnd (s : State) : State :=
  if s.controller.standIn = .arming ∧ unsettled s = 0 then endArming false s else s

/-! The tables as a classification in progress reads them (R52). -/

/-- What the classification in progress reads of edited items; nothing where none is in progress. -/
def superseded (s : State) : Superseded :=
  match s.classifier.current with
  | some c => c.superseded
  | none => { entries := [], sessions := [], templates := [], rules := none, policy := none }

/-- A table with items put back at their indexes. -/
def putBack {α : Type} (kept : List (Nat × Option α)) (l : List (Option α)) : List (Option α) :=
  kept.foldl (fun l p => l.set p.1 p.2) l

/-- The identity table as the frame in classification reads it. -/
def entriesRead (s : State) : List (Option IdentityEntry) := putBack (superseded s).entries s.responder.entries

/-- The session table as the frame in classification reads it. -/
def sessionsRead (s : State) : List (Option Session) := putBack (superseded s).sessions s.keeper.sessions

/-- The template store as the frame in classification reads it. -/
def templatesRead (s : State) : List (Option Template) := putBack (superseded s).templates s.builder.templates

/-- The policy record as the frame in classification reads it. -/
def policyRead (s : State) : Policy := (superseded s).policy.getD s.wake.policy

/-- The rules as the frame in classification reads them, each with the place it holds in the list now. -/
def rulesRead (s : State) : List (Rule × Option Nat) :=
  match (superseded s).rules with
  | none => s.classifier.rules.zipIdx.map (fun p => (p.1, some p.2))
  | some l =>
    l.map (fun p =>
      match p.2 with
      | some i => (s.classifier.rules.getD i p.1, some i)
      | none => p)

/-- An index whose item has been edited since the taking. -/
def isSuperseded {α : Type} (kept : List (Nat × Option α)) (i : Nat) : Bool := kept.any (fun p => p.1 == i)

/-- A change of the runtime fields of an identity entry by the frame in classification; an item edited since the
taking has no field left to change (assumption 12). -/
def touchEntry (i : Nat) (f : IdentityEntry → IdentityEntry) (s : State) : State :=
  if isSuperseded (superseded s).entries i then s
  else { s with responder := { s.responder with entries := modifyAt s.responder.entries i f } }

/-- As touchEntry, for a session record. -/
def touchSession (i : Nat) (f : Session → Session) (s : State) : State :=
  if isSuperseded (superseded s).sessions i then s
  else { s with keeper := { s.keeper with sessions := modifyAt s.keeper.sessions i f } }

/-- As touchEntry, for a template. -/
def touchTemplate (i : Nat) (f : Template → Template) (s : State) : State :=
  if isSuperseded (superseded s).templates i then s
  else { s with builder := { s.builder with templates := modifyAt s.builder.templates i f } }

/-- As touchEntry, for the rule at a place. -/
def touchRule (place : Option Nat) (f : Rule → Rule) (s : State) : State :=
  match place with
  | some i => { s with classifier := { s.classifier with rules := s.classifier.rules.modify i f } }
  | none => s

/-! Dispositions. -/

/-- A frame's disposition settled (R75): its counter rises and the classifier is free; the end of a return may follow
(R21). -/
def settle (d : Disposition) (s : State) : State :=
  let s1 := count (.settled d) 1 s
  checkDrained { s1 with classifier := { s1.classifier with current := none } }

/-! Entries of the identity table. -/

/-- The MAC of the LINK entry that an entry names. -/
def linkMac (entries : List (Option IdentityEntry)) (e : IdentityEntry) : Mac :=
  match lookup entries e.link with
  | some l => l.addr
  | none => []

/-- The LINK entry of a VLAN (R56). -/
def linkOfVlan (entries : List (Option IdentityEntry)) (vlan : Nat) : Option IdentityEntry :=
  ((occupied entries).find? (fun p => p.2.kind == .link && p.2.vlan == vlan)).map (·.2)

/-- The ACTIVE entry of a kind, VLAN and address, with its index. -/
def activeEntry (entries : List (Option IdentityEntry)) (kind : EntryKind) (vlan : Nat) (addr : Addr) :
    Option (Nat × IdentityEntry) :=
  (occupied entries).find? (fun p =>
    p.2.kind == kind && p.2.vlan == vlan && p.2.addr == addr && p.2.state == .active)

end Sys2Proof.Machine
end

