-- ==== Sys2Proof/Machine/Operands.lean ====
section
/-! DEFINITION. The operand forms of the host requests: how a body is read by the layout of its kind, and which fields are admitted
(R184 and each request's own checks). -/

namespace Sys2Proof.Machine

open Sys2Proof

/-- A byte taken as flags: one of its bits. -/
def bitOf (n i : Nat) : Bool := n / 2 ^ i % 2 == 1

/-- The state of tables and lists after a reset, for an entry just written (R28). -/
def freshEntry (kind : EntryKind) (vlan : Nat) (addr : Addr) (link : Nat) (defend answer : Bool)
    (lease : Option Lease) : IdentityEntry :=
  { kind := kind, vlan := vlan, addr := addr, link := link, defend := defend, answer := answer, lease := lease,
    state := .active, conflicts := 0, lastDefence := none, answers := 0, leaseMark := false, report := none,
    budget := 0, defence := false }

/-! IDENTITY PUT. -/

/-- The identity kinds by code (section 11.1). -/
def entryKindOf (code : Nat) : Option EntryKind :=
  match code with
  | 0 => some .link
  | 1 => some .ipv4
  | 2 => some .ipv6
  | 3 => some .group4
  | 4 => some .group6
  | _ => none

/-- The bytes of an entry's address by kind (R28, section 11.2). -/
def EntryKind.addrLength (k : EntryKind) : Nat :=
  match k with
  | .link => 6
  | .ipv4 | .group4 => 4
  | .ipv6 | .group6 => 16

/-- Check 1 of IDENTITY PUT (R29). A kind of no code declares no length; the three entry lengths pass (assumption 9). -/
def identityPutLengthOk (body : List Byte) : Bool :=
  match entryKindOf (at1 body 1) with
  | some k => body.length == 10 + k.addrLength
  | none => body.length == 14 || body.length == 16 || body.length == 26

/-- A unicast IPv4 or IPv6 address as R93 states it; for identity entries see assumption 10. -/
def isUnicast (a : Addr) : Bool :=
  if a.length = 4 then
    !allZero a && a != List.replicate 4 0xFF && !(decide (224 ≤ at1 a 0) && decide (at1 a 0 ≤ 239))
  else !allZero a && at1 a 0 != 0xFF

/-- A MAC that is neither all zeros nor a group address (R93). -/
def isUnicastMac (m : Mac) : Bool := !allZero m && at1 m 0 % 2 == 0

/-- Check 4 of IDENTITY PUT (R29): the address is admissible for the kind. -/
def addrAdmissible (k : EntryKind) (a : Addr) : Bool :=
  match k with
  | .link => isUnicastMac a
  | .ipv4 | .ipv6 => isUnicast a
  | .group4 => decide (224 ≤ at1 a 0) && decide (at1 a 0 ≤ 239) && a != [224, 0, 0, 1]
  | .group6 => at1 a 0 == 0xFF && a != allNodes

/-- The entry that an IDENTITY PUT body names, where checks 3 to 5 of R29 and R184 pass, with its index. -/
def identityPutEntry (now : Time) (body : List Byte) : Option (Nat × IdentityEntry) :=
  match entryKindOf (at1 body 1) with
  | none => none
  | some k =>
    let flags := at1 body 5
    let leased := bitOf flags 2
    let seconds := at4 body 6
    let addr := body.drop 10
    let isAddr := k == .ipv4 || k == .ipv6
    if at1 body 0 ≤ 23 ∧ at2 body 2 ≤ 4094 ∧ addrAdmissible k addr ∧ flags < 8 ∧ (isAddr || flags == 0)
        ∧ (leased || seconds == 0) ∧ (!leased || (decide (1 ≤ seconds) && decide (seconds ≤ 2592000)))
        ∧ (k != .link || at1 body 4 == 0) then
      some
        (at1 body 0,
          freshEntry k (at2 body 2) addr (at1 body 4) (bitOf flags 0) (bitOf flags 1)
            (if leased then some { start := now, seconds := seconds } else none))
    else none

/-! RULE PUT. -/

/-- The size of the match field of each presence bit, at an offset of the body; the two variable ones read their
declared length there. -/
def matchFieldSize (body : List Byte) (off i : Nat) : Nat :=
  match i with
  | 0 => 2
  | 1 => 2
  | 2 => 1
  | 3 => 1
  | 4 => if at1 body off = 4 then 6 else 18
  | 5 => 1
  | 6 => 4
  | 7 => 2
  | 8 => 2 + 2 * at1 body (off + 1)
  | _ => 0

/-- The offset at which match field i of a RULE PUT body begins (the position byte is byte 0). -/
def matchFieldOffset (body : List Byte) : Nat → Nat
  | 0 => 9
  | i + 1 =>
    let off := matchFieldOffset body i
    if bitOf (at2 body 1) i then off + matchFieldSize body off i else off

/-- Check 1 of RULE PUT (R65). A source prefix of unknown version declares no length; both sizes pass (assumption 9). -/
def rulePutLengthOk (body : List Byte) : Bool :=
  let off := matchFieldOffset body 4
  let known := !bitOf (at2 body 1) 4 || at1 body off == 4 || at1 body off == 6
  decide (9 ≤ body.length) &&
    (if known then body.length == matchFieldOffset body 9
     else decide (matchFieldOffset (body.set off 4) 9 = body.length) || decide (matchFieldOffset (body.set off 6) 9 = body.length))

/-- A match field's value where its presence bit is set. -/
def fieldIf {α : Type} (body : List Byte) (i : Nat) (f : Nat → α) : Option α :=
  if bitOf (at2 body 1) i then some (f (matchFieldOffset body i)) else none

/-- The match fields of a RULE PUT body. -/
def ruleFields (body : List Byte) : MatchFields :=
  { vlan := fieldIf body 0 (at2 body)
    etherType := fieldIf body 1 (at2 body)
    ipVersion := fieldIf body 2 (at1 body)
    ipProto := fieldIf body 3 (at1 body)
    source := fieldIf body 4 (fun o =>
      { addr := slice body (o + 2) (if at1 body o = 4 then 4 else 16), bits := at1 body (o + 1) })
    destIndex := fieldIf body 5 (at1 body)
    ports := fieldIf body 6 (fun o => (at2 body o, at2 body (o + 2)))
    tcpFlags := fieldIf body 7 (fun o => (body.getD o 0, body.getD (o + 1) 0))
    pattern := fieldIf body 8 (fun o =>
      { offset := at1 body o, bytes := slice body (o + 2) (at1 body (o + 1)),
        mask := slice body (o + 2 + at1 body (o + 1)) (at1 body (o + 1)) }) }

/-- A test of a field that is present. -/
def presentOk {α : Type} (x : Option α) (ok : α → Bool) : Bool :=
  match x with
  | some a => ok a
  | none => true

/-- The ranges of the match fields (R63), and that none contradicts another (R65 check 3). -/
def matchFieldsOk (m : MatchFields) : Bool :=
  presentOk m.vlan (fun v => decide (v ≤ 4094))
    && presentOk m.etherType (fun v => decide (0x0600 ≤ v))
    && presentOk m.ipVersion (fun v => v == 4 || v == 6)
    && presentOk m.source (fun p => decide (p.bits ≤ 8 * p.addr.length))
    && presentOk m.destIndex (fun v => decide (v ≤ 23))
    && presentOk m.ports (fun p => decide (p.1 ≤ p.2))
    && presentOk m.tcpFlags (fun p => p.2 &&& ~~~p.1 == 0)
    && presentOk m.pattern (fun p =>
        decide (1 ≤ p.bytes.length) && decide (p.bytes.length ≤ 16)
          && (p.bytes.zip p.mask).all (fun q => q.1 &&& ~~~q.2 == 0))
    && presentOk m.ipVersion (fun v => presentOk m.source (fun p => p.addr.length == (if v = 4 then 4 else 16)))

/-- The rule actions by code, with the template index. -/
def ruleActionOf (code index : Nat) : Option RuleAction :=
  match code with
  | 5 => if index ≤ 7 then some (.template index) else none
  | 0 => if index = 0 then some .discard else none
  | 1 => if index = 0 then some .hold else none
  | 2 => if index = 0 then some .wake else none
  | 3 => if index = 0 then some .holdWake else none
  | 4 => if index = 0 then some .echo else none
  | _ => none

/-- The overflow actions by code. -/
def overflowActionOf (code : Nat) : Option OverflowAction :=
  match code with
  | 0 => some .discard
  | 1 => some .hold
  | 2 => some .wake
  | _ => none

/-- The period classes by code. -/
def periodClassOf (code : Nat) : Option PeriodClass :=
  match code with
  | 0 => some .p0
  | 1 => some .p1
  | 2 => some .p2
  | 3 => some .p3
  | _ => none

/-- The address version code of a source prefix is known. -/
def prefixVersionOk (body : List Byte) : Bool :=
  presentOk (fieldIf body 4 (at1 body)) (fun v => v == 4 || v == 6)

/-- The rule that a RULE PUT body carries, where check 3 of R65 and R184 pass; its counts are 0 (R62). -/
def rulePutRule (body : List Byte) : Option Rule :=
  match ruleActionOf (at1 body 3) (at1 body 4), overflowActionOf (at1 body 5), periodClassOf (at1 body 6) with
  | some action, some overflow, some period =>
    if at2 body 1 < 512 ∧ prefixVersionOk body ∧ 1 ≤ at2 body 7 ∧ matchFieldsOk (ruleFields body) then
      some
        { fields := ruleFields body, action := action, limit := at2 body 7, period := period, overflow := overflow,
          hits := 0, overflows := 0 }
    else none
  | _, _, _ => none

/-! TEMPLATE PUT. -/

/-- Check 1 of TEMPLATE PUT (R81): the length that the patch count and the template length declare. -/
def templatePutLengthOk (body : List Byte) : Bool :=
  decide (4 ≤ body.length) && body.length == 4 + 8 * at1 body 3 + at2 body 1

/-- A patch point of 8 bytes, where its kind is known, its fields are in range and the bytes it does not use are 0
(R80, R184). Bits of byte 1 that the layout gives no meaning and does not call reserved (bits 4 to 7 of IP_FROM_SOURCE,
bits 5 to 7 of TRANSPORT_CHECKSUM) are 0 in an admitted point too, which is the model's choice (assumption 29). -/
def patchOf (p : List Byte) : Option Patch :=
  let version := at1 p 1
  let s := at2 p 2
  let t := at2 p 4
  let len := at1 p 6
  if at1 p 7 ≠ 0 then none
  else
    match at1 p 0 with
    | 0 => if version = 0 ∧ s = 0 ∧ t = 0 ∧ len = 0 then some .macFromSource else none
    | 1 => if (version = 4 ∨ version = 6) ∧ s = 0 ∧ len = 0 then some (.ipFromSource t version) else none
    | 2 => if version = 0 ∧ s = 0 ∧ len = 0 then some (.portFromSource t) else none
    | 3 => if version = 0 ∧ s ≤ 1521 ∧ 1 ≤ len ∧ len ≤ 16 then some (.copy s t len) else none
    | 4 => if version = 0 ∧ s = 0 ∧ len = 0 then some (.ip4Checksum t) else none
    | 5 =>
      if (version % 16 = 4 ∨ version % 16 = 6) ∧ version < 32 ∧ s = 0 ∧ len = 0 then
        some (.transportChecksum t (version % 16) (if version / 16 = 1 then .tcp else .udp))
      else none
    | _ => none

/-- The patch points of a TEMPLATE PUT body, where each is admitted. -/
def patchesOf : Nat → List Byte → Option (List Patch)
  | 0, _ => some []
  | n + 1, l =>
    match patchOf (l.take 8), patchesOf n (l.drop 8) with
    | some p, some ps => some (p :: ps)
    | _, _ => none

/-- The recorded header length of a patch point (R79, R82): the low four bits of the byte at its target. -/
def recordedWords (bytes : List Byte) (p : Patch) : Nat :=
  match p with
  | .ip4Checksum t => at1 bytes t % 16
  | .transportChecksum t v _ => if v = 4 then at1 bytes t % 16 else 0
  | .macFromSource | .ipFromSource _ _ | .portFromSource _ | .copy _ _ _ => 0

/-- The least transport header that a TRANSPORT_CHECKSUM point needs (R82). -/
def protoHeader (proto : ChecksumProto) : Nat :=
  match proto with
  | .udp => 8
  | .tcp => 20

/-- The byte at a target begins an IPv4 header of 5 to 15 words (R82). -/
def ip4HeaderAt (bytes : List Byte) (t : Nat) : Bool :=
  at1 bytes t / 16 == 4 && decide (5 ≤ at1 bytes t % 16)

/-- Check 4 of TEMPLATE PUT for one patch point (R82). -/
def patchPlaced (bytes : List Byte) (p : Patch) : Bool :=
  match p with
  | .macFromSource => true
  | .ipFromSource t v => decide (t + (if v = 4 then 4 else 16) ≤ bytes.length)
  | .portFromSource t => decide (t + 2 ≤ bytes.length)
  | .copy s t len => decide (t + len ≤ bytes.length) && decide (s + len ≤ 1522)
  | .ip4Checksum t => ip4HeaderAt bytes t && decide (t + 4 * (at1 bytes t % 16) ≤ bytes.length)
  | .transportChecksum t v proto =>
    (if v = 4 then ip4HeaderAt bytes t else at1 bytes t / 16 == 6)
      && decide (segmentStart t v (at1 bytes t % 16) + protoHeader proto ≤ bytes.length)

/-- The template that a TEMPLATE PUT body carries, with its index, where checks 3 and 4 of R81 pass. -/
def templatePutTemplate (body : List Byte) : Option (Nat × Template) :=
  let n := at1 body 3
  let bytes := body.drop (4 + 8 * n)
  match patchesOf n (body.drop 4) with
  | none => none
  | some ps =>
    if at1 body 0 ≤ 7 ∧ 14 ≤ at2 body 1 ∧ at2 body 1 ≤ 256 ∧ n ≤ 6 ∧ ps.all (patchPlaced bytes) then
      some
        (at1 body 0,
          { bytes := bytes, patches := ps, headerWords := ps.map (recordedWords bytes), built := 0, failed := 0 })
    else none

/-! SESSION PUT. -/

/-- Check 1 of SESSION PUT (R93): the length that the address length declares (section 11.2). -/
def sessionPutLengthOk (body : List Byte) : Bool := decide (30 ≤ body.length) && body.length == 30 + at1 body 2

/-- The record that a SESSION PUT body carries, with its index, where check 3 of R93 and R184 pass. That a declared address
length other than 4 or 16, and a reserved byte other than 0, fail check 3, ahead of the entry's check 4, is the model's
choice (assumption 9). -/
def sessionPutRecord (nextProbe : Nat) (body : List Byte) : Option (Nat × Session) :=
  let interval := at2 body 24
  let timeout := at1 body 26
  let limit := at1 body 27
  let idle := at2 body 28
  if at1 body 0 ≤ 11 ∧ (at1 body 2 = 4 ∨ at1 body 2 = 16) ∧ at1 body 3 = 0 ∧ 10 ≤ interval ∧ interval ≤ 7200
      ∧ 1 ≤ timeout ∧ timeout ≤ 60 ∧ 1 ≤ limit ∧ limit ≤ 10 ∧ idle ≤ interval ∧ isUnicastMac (slice body 8 6) then
    some
      (at1 body 0,
        { localIndex := at1 body 1, localPort := at2 body 4, remoteAddr := body.drop 30, remotePort := at2 body 6,
          nextHop := slice body 8 6, sndNxt := BitVec.ofNat 32 (at4 body 14), rcvNxt := BitVec.ofNat 32 (at4 body 18),
          window := at2 body 22, interval := interval, timeout := timeout, limit := limit, idleAge := idle,
          state := .ready, atReturn := none, outstanding := 0, phase := .none, nextDue := none, deadline := none,
          lastHeard := none, probesSent := 0, peerAcks := 0, peerProbes := 0, dataHeld := 0, outOfWindow := 0,
          probeId := 0, firstProbe := nextProbe })
  else none

/-- Check 4 of SESSION PUT (R93): the IPV4 or IPV6 entry at the local identity index. -/
def localEntry (entries : List (Option IdentityEntry)) (x : Session) : Option IdentityEntry :=
  match lookup entries x.localIndex with
  | some e => if e.isAddress then some e else none
  | none => none

/-- Two records are of one connection (R93 check 6): equal local addresses, ports and remote address. -/
def sameConnection (entries : List (Option IdentityEntry)) (addr : Addr) (x y : Session) : Bool :=
  (match lookup entries y.localIndex with
    | some e => e.addr == addr
    | none => false)
    && y.localPort == x.localPort && y.remoteAddr == x.remoteAddr && y.remotePort == x.remotePort

/-! POLICY SET. -/

/-- The policy record that a POLICY SET body carries, where check 3 of R175 and R184 pass. -/
def policySetRecord (body : List Byte) : Option Policy :=
  let light := body.getD 0 0
  let deep := body.getD 1 0
  if light.toNat < 128 ∧ deep.toNat < 128 ∧ at1 body 2 ≤ 1 ∧ at1 body 3 ≤ 1 ∧ 25 ≤ at1 body 4 ∧ at1 body 4 ≤ 100
      ∧ 1 ≤ at1 body 5 ∧ at1 body 5 ≤ 60 ∧ at1 body 6 ≤ 7 ∧ 2 ≤ at1 body 7 ∧ at1 body 7 ≤ 120
      ∧ 10 ≤ at2 body 8 ∧ at2 body 8 ≤ 3600 ∧ 1 ≤ at2 body 10 ∧ at2 body 10 ≤ 1000 then
    some
      { light := light, deep := deep, defaultAction := if at1 body 2 = 0 then .discard else .hold,
        overflow := if at1 body 3 = 0 then .dropNewest else .dropOldest, highMark := at1 body 4,
        wakeResponse := at1 body 5, retries := at1 body 6, claimWindow := at1 body 7, leaseMargin := at2 body 8,
        answerLimit := at2 body 10 }
  else none

/-! HAND OVER. -/

/-- The sleep depths by code (section 11.1). -/
def depthOf (code : Nat) : Option Depth :=
  match code with
  | 0 => some .light
  | 1 => some .deep
  | _ => none

/-- Check 4 of HAND OVER (R6). -/
def tableComplete (entries : List (Option IdentityEntry)) : Bool :=
  (occupied entries).any (fun p => p.2.kind == .link) && (occupied entries).any (fun p => p.2.isAddress)

/-- An entry other than a LINK entry names a LINK entry of its own VLAN (R6 check 5). -/
def linkNamed (entries : List (Option IdentityEntry)) (e : IdentityEntry) : Bool :=
  match lookup entries e.link with
  | some l => l.kind == .link && l.vlan == e.vlan
  | none => false

/-- A session names a usable local entry (R6 check 5). -/
def sessionNamed (entries : List (Option IdentityEntry)) (x : Session) : Bool :=
  match lookup entries x.localIndex with
  | some e => e.isAddress && (linkOfVlan entries e.vlan).isSome && e.addr.length == x.remoteAddr.length
  | none => false

/-- Check 5 of HAND OVER (R6). -/
def referencesOk (entries : List (Option IdentityEntry)) (sessions : List (Option Session)) : Bool :=
  (occupied entries).all (fun p => p.2.kind == .link || linkNamed entries p.2)
    && (occupied sessions).all (fun p => sessionNamed entries p.2)

/-- A session record is RETURNED (R6 check 6). -/
def anyReturned (sessions : List (Option Session)) : Bool := (occupied sessions).any (fun p => p.2.state == .returned)

end Sys2Proof.Machine
end

