-- ==== Sys2Proof/Machine/HoldOps.lean ====
section
/-! DEFINITION. The hold buffer: accepting a hold, displacement, the level flag, and the return drain (chapter 6). -/

namespace Sys2Proof.Machine

open Sys2Proof

/-- A frame of the length given fits beside the records of a queue (R116). -/
def fits (q : List HeldFrame) (len : Nat) : Bool := decide (q.length + 1 ≤ 64) && decide (bytesOf q + len ≤ 32768)

/-- A queue without its m oldest unkept records (R117); the rest keep their order. -/
def dropUnkept : Nat → List HeldFrame → List HeldFrame
  | 0, q => q
  | _ + 1, [] => []
  | m + 1, h :: q => if h.kept then h :: dropUnkept (m + 1) q else dropUnkept m q

/-- The number of unkept records of a queue. -/
def unkeptCount (q : List HeldFrame) : Nat := (q.filter (fun h => !h.kept)).length

/-- The smallest number of oldest unkept records whose removal makes room (R117), where there is one. -/
def displacement (q : List HeldFrame) (len : Nat) : Option Nat :=
  (List.range (unkeptCount q + 1)).find? (fun m => fits (dropUnkept m q) len)

/-- The number of records that a hold displaces in the present state, where the hold is accepted (R115 to R117). The
overflow policy is the one the frame in classification reads (R52, assumption 12). -/
def holdDecision (s : State) (len : Nat) : Option Nat :=
  if s.controller.standIn = .attended then none
  else if s.controller.standIn.serving ∧ (policyRead s).overflow = .dropOldest then displacement s.hold.queue len
  else if fits s.hold.queue len then some 0 else none

/-- The record made for an accepted hold (R114). -/
def heldRecord (s : State) (frame : List Byte) (source : HoldSource) (kept : Bool) : HeldFrame :=
  { arrival := s.time, source := source, kept := kept, vlan := heldVlan frame, bytes := frame, delivery := .waiting }

/-- The level flag brought up to date (R119). -/
def updateLevel (s : State) : State :=
  { s with hold := { s.hold with level := levelOf s.wake.policy.highMark s.hold.queue } }

/-- The records that a sending step may still send: 4 less those outstanding (R121). -/
def sendRoom (s : State) : Nat := 4 - (inFlightCount s.hold.queue + s.hold.forgotten)

/-- A queue with its oldest n WAITING records IN_FLIGHT. -/
def markInFlight : Nat → List HeldFrame → List HeldFrame
  | 0, q => q
  | _ + 1, [] => []
  | n + 1, h :: q =>
    if h.delivery = .waiting then { h with delivery := .inFlight } :: markInFlight n q
    else h :: markInFlight (n + 1) q

/-- The oldest n WAITING records of a queue, in queue order. -/
def oldestWaiting (n : Nat) (q : List HeldFrame) : List HeldFrame :=
  (q.filter (fun h => h.delivery == .waiting)).take n

/-- The DELIVER record of a held frame (R121, section 11.6). -/
def deliverRecord (h : HeldFrame) : StationOut := .deliver h.arrival h.source h.bytes

/-- The drain's sending step (R121), made in RETURNING while the link is UP. -/
def sendingStep (s : State) : State :=
  if s.controller.standIn = .returning ∧ s.port.linkUp = true then
    { s with
      hold := { s.hold with queue := markInFlight (sendRoom s) s.hold.queue }
      port := { s.port with sent := s.port.sent ++ (oldestWaiting (sendRoom s) s.hold.queue).map deliverRecord } }
  else s

/-- A hold requested and accepted with m records displaced (R115, R117): the record joins the tail, the displaced
records leave and are counted, the level flag is brought up to date. -/
def acceptHold (frame : List Byte) (source : HoldSource) (kept : Bool) (m : Nat) (s : State) : State :=
  let q := dropUnkept m s.hold.queue ++ [heldRecord s frame source kept]
  updateLevel (count .displaced m { s with hold := { s.hold with queue := q } })

/-- The answer of the hold buffer to a request. -/
structure HoldAnswer where
  state : State
  accepted : Bool
  /-- HOLD_HIGH is to be reported for it (R120). -/
  rose : Bool

/-- A hold requested (R115): refused and counted, or accepted; in RETURNING the sending step follows at once. -/
def requestHold (frame : List Byte) (source : HoldSource) (kept : Bool) (s : State) : HoldAnswer :=
  match holdDecision s frame.length with
  | none => { state := count .holdRefused 1 s, accepted := false, rose := false }
  | some m =>
    let s1 := acceptHold frame source kept m s
    { state := sendingStep s1, accepted := true,
      rose := s.controller.standIn.serving && s.hold.level == .below && s1.hold.level == .above }

/-- The HOLD_HIGH report of an answer, if it is to be made (R120). -/
def highReports (a : HoldAnswer) : List Report :=
  if a.rose then [{ cause := .holdHigh, origin := none, frame := none }] else []

/-- The disposition that a hold's answer gives (R75). -/
def holdDisposition (a : HoldAnswer) : Disposition := if a.accepted then .held else .discarded

/-- A queue without its oldest IN_FLIGHT record (R122). -/
def removeInFlight : List HeldFrame → List HeldFrame
  | [] => []
  | h :: q => if h.delivery = .inFlight then q else h :: removeInFlight q

/-- A DELIVER_DONE at the hold buffer (R122). -/
def takeDeliverDone (s : State) : State :=
  if 0 < s.hold.forgotten then { s with hold := { s.hold with forgotten := s.hold.forgotten - 1 } }
  else if inFlightCount s.hold.queue = 0 then s
  else updateLevel (count .delivered 1 { s with hold := { s.hold with queue := removeInFlight s.hold.queue } })

/-- A PORT_RESET at the hold buffer (R124). -/
def resetDeliveries (s : State) : State :=
  { s with
    hold := { s.hold with queue := s.hold.queue.map (fun h => { h with delivery := .waiting }), forgotten := 0 } }

/-- A return cut short (R22, R125). -/
def cutReturn (s : State) : State :=
  let s1 := count .cutDiscarded s.hold.queue.length s
  let s2 :=
    { s1 with
      hold := { queue := [], level := .below, forgotten := s.hold.forgotten + inFlightCount s.hold.queue } }
  endReturn .cut s2

end Sys2Proof.Machine
end

