-- ==== Sys2Proof/Machine/KeeperOps.lean ====
section
/-! DEFINITION. The session keeper: starting from presets, probes and their phases, the sorting of peer segments, and loss (chapter 5). -/

namespace Sys2Proof.Machine

open Sys2Proof

/-- A session record changed. -/
def modifySession (i : Nat) (f : Session → Session) (s : State) : State :=
  { s with keeper := { s.keeper with sessions := modifyAt s.keeper.sessions i f } }

/-- The cause SESSION_LOST of a session (R129). -/
def lostReport (i : Nat) (frame : Option (List Byte)) : Report :=
  { cause := .sessionLost, origin := some i, frame := frame }

/-- The frame of R98 that a session sends with a sequence number, its local entry read from the table given. -/
def segmentOf (entries : List (Option IdentityEntry)) (x : Session) (seq : Seq) : List Byte :=
  match lookup entries x.localIndex with
  | some e => sessionSegment x (linkMac entries e) e.vlan e.addr seq
  | none => sessionSegment x [] 0 [] seq

/-- A record started from its presets at HAND OVER (R96). -/
def Session.start (x : Session) (now : Time) : Session :=
  let heard := now - BitVec.ofNat 32 (x.idleAge * 1000)
  { x with
    state := .ready
    atReturn := none
    outstanding := 0
    phase := .none
    deadline := none
    lastHeard := some heard
    nextDue := some (later heard (x.interval * 1000))
    probesSent := 0
    peerAcks := 0
    peerProbes := 0
    dataHeld := 0
    outOfWindow := 0 }

/-- A record gone to LOST (R96, R106): its due time and deadline absent, its probe withdrawn. -/
def Session.lose (x : Session) : Session :=
  { x with state := .lost, nextDue := none, deadline := none, phase := .none }

/-- A record become RETURNED (R109). -/
def Session.returned (x : Session) : Session :=
  { x with state := .returned, atReturn := some x.state, nextDue := none, deadline := none }

/-- The probe or round fields of a record that leaves READY or PROBING on hearing data, a close or a reset (R104). -/
def Session.endRound (x : Session) : Session :=
  { x with nextDue := none, outstanding := 0, deadline := none, phase := .none }

/-- A record that has heard its peer in READY or PROBING (R102, R103): READY with a new due time. -/
def Session.heardAlive (x : Session) (now : Time) : Session :=
  { x with
    state := .ready
    outstanding := 0
    deadline := none
    phase := .none
    nextDue := some (later now (x.interval * 1000)) }

/-- A session's PENDING probe offered (R99): while the link is UP, and QUEUED from its acceptance on. -/
def offerProbe (i : Nat) (s : State) : State :=
  match lookup s.keeper.sessions i with
  | none => s
  | some x =>
    if x.state = .probing ∧ x.phase = .pending ∧ s.port.linkUp = true then
      let frame := segmentOf s.responder.entries x (x.sndNxt - 1)
      let s1 := offerTx .probe (.probe i s.keeper.nextProbe) frame s
      if offerResult .probe s = .accepted then
        { s1 with
          keeper :=
            { sessions :=
                modifyAt s1.keeper.sessions i (fun x => { x with phase := .queued, probeId := s.keeper.nextProbe })
              nextProbe := s.keeper.nextProbe + 1 } }
      else s1
    else s

/-- The sessions with a PENDING probe, in index order (R99). -/
def pendingProbes (s : State) : List Nat :=
  ((occupied s.keeper.sessions).filter (fun p => p.2.state == .probing && p.2.phase == .pending)).map (·.1)

/-- The keeper's offers at an invitation (R155): its pending probes in index order, as far as room allows. -/
def keeperOffers (s : State) : State := (pendingProbes s).foldl (fun s i => offerProbe i s) s

/-- A keepalive round begun (R97): PROBING, one probe outstanding, its first probe offered at once. -/
def beginRound (i : Nat) (s : State) : State :=
  offerProbe i
    (modifySession i
      (fun x => { x with state := .probing, nextDue := none, outstanding := 1, deadline := none, phase := .pending }) s)

/-- The probe is the record's current QUEUED probe (R99). -/
def Session.isCurrent (x : Session) (number : Nat) : Bool :=
  x.state == .probing && x.phase == .queued && x.probeId == number

/-- A settlement of a probe at its record (R99): the current probe's starts the probe timer, and a TX_DONE counts the
probe as sent unless the record is RETURNED; a probe of an earlier record at the index is told to none
(assumption 15). -/
def Session.settleProbe (x : Session) (number : Nat) (done : Bool) (now : Time) : Session :=
  if number < x.firstProbe ∨ x.state = .returned then x
  else
    let x1 := { x with probesSent := if done then inc32 x.probesSent else x.probesSent }
    if x.isCurrent number then { x1 with phase := .timing, deadline := some (later now (x.timeout * 1000)) } else x1

/-- The expiry of a session's probe timer with the link UP (R100). -/
def probeTimeout (i : Nat) (x : Session) (s : State) : State :=
  if x.outstanding < x.limit then
    offerProbe i
      (modifySession i
        (fun x => { x with deadline := none, outstanding := x.outstanding + 1, phase := .pending }) s)
  else reportCause (lostReport i none) (modifySession i Session.lose s)

/-- The expiry of a session's probe timer with the link DOWN: not counted (R107). -/
def probeTimeoutDown (i : Nat) (s : State) : State :=
  modifySession i (fun x => { x with deadline := none, phase := .pending }) s

/-- The QUEUED probes lost by a PORT_RESET (R108): PENDING again, in ARMING, STANDING and CALLING. -/
def requeueProbes (s : State) : State :=
  if s.controller.standIn.serving then
    { s with
      keeper :=
        { s.keeper with
          sessions :=
            mapTable s.keeper.sessions (fun x =>
              if x.state = .probing ∧ x.phase = .queued then { x with phase := .pending } else x) } }
  else s

/-- The live sessions whose local entry is the one named, in index order (R106). -/
def sessionsOf (entry : Nat) (s : State) : List Nat :=
  ((occupied s.keeper.sessions).filter (fun p => p.2.localIndex == entry && p.2.state.live)).map (·.1)

/-- One session lost through its local address (R106). -/
def loseSession (i : Nat) (s : State) : State := reportCause (lostReport i none) (modifySession i Session.lose s)

/-- The sessions of an entry that has left ACTIVE lost, one after another in index order (R106). -/
def loseSessions (entry : Nat) (s : State) : State := (sessionsOf entry s).foldl (fun s i => loseSession i s) s

/-- The kinds of segment of R101. -/
inductive SegmentKind where
  | reset | close | peerProbe | peerAck | data | outOfWindow
  deriving DecidableEq, Repr

/-- A sequence number is in the record's window (R101). -/
def Session.inWindow (x : Session) (seq : Seq) : Bool :=
  if x.window = 0 then seq == x.rcvNxt else decide ((seq - x.rcvNxt).toNat < x.window)

/-- Data and a FIN are taken at RCV_NXT, and in HEARD_DATA anywhere in window (R101). -/
def Session.dataAt (x : Session) (state : SessionState) (seq : Seq) : Bool :=
  seq == x.rcvNxt || (state == .heardData && x.inWindow seq)

/-- A bit of a TCP flags byte. -/
def flagSet (flags : Byte) (bit : Nat) : Bool := flags.getLsbD bit

/-- The kind of a segment (R101) for a record in the state given: FIN is bit 0 of the flags, SYN bit 1, RST bit 2, ACK
bit 4. -/
def Session.sort (x : Session) (state : SessionState) (seq ack : Seq) (flags : Byte) (dataLen : Nat) : SegmentKind :=
  if flagSet flags 2 && x.inWindow seq then .reset
  else if flagSet flags 2 || flagSet flags 1 || !flagSet flags 4 then .outOfWindow
  else if flagSet flags 0 then (if x.dataAt state seq then .close else .outOfWindow)
  else if seq == x.rcvNxt - 1 && decide (dataLen ≤ 1) then .peerProbe
  else if seq == x.rcvNxt && decide (dataLen = 0) && ack == x.sndNxt then .peerAck
  else if decide (0 < dataLen) && x.dataAt state seq then .data
  else .outOfWindow

/-- A peer ACK at a live record (R102). -/
def Session.onPeerAck (x : Session) (now : Time) : Session :=
  let x1 := { x with peerAcks := inc32 x.peerAcks, lastHeard := some now }
  match x.state with
  | .ready => { x1 with nextDue := some (later now (x.interval * 1000)) }
  | .probing => x1.heardAlive now
  | .heardData | .closed | .lost | .returned => x1

/-- A peer probe at a live record (R103); kept says that the transmit queue took the ACK. -/
def Session.onPeerProbe (x : Session) (kept : Bool) (now : Time) : Session :=
  let x1 := { x with peerProbes := if kept then inc32 x.peerProbes else x.peerProbes, lastHeard := some now }
  match x.state with
  | .ready => { x1 with nextDue := some (later now (x.interval * 1000)) }
  | .probing => x1.heardAlive now
  | .heardData | .closed | .lost | .returned => x1

/-- A data segment at a live record (R104); held says that the hold was accepted. -/
def Session.onData (x : Session) (held : Bool) (now : Time) : Session :=
  let x1 := { x with dataHeld := if held then inc32 x.dataHeld else x.dataHeld, lastHeard := some now }
  if x.state = .heardData then x1 else { x1.endRound with state := .heardData }

/-- A close or reset segment at a live record (R104). -/
def Session.onEnd (x : Session) (now : Time) : Session :=
  { x.endRound with state := .closed, lastHeard := some now }

/-- The session record that a frame belongs to at step 4 (R59), with its index and the transport fields, where the
records that count as live are those that the test admits. -/
def sessionMatch (entries : List (Option IdentityEntry)) (sessions : List (Option Session))
    (live : Session → Bool) (f : List Byte) : Option (Nat × Session) :=
  match readIp f with
  | none => none
  | some ip =>
    match ipTransport ip with
    | some (.tcp sp dp _ _ _ _) =>
      (occupied sessions).find? (fun p =>
        live p.2 && p.2.localPort == dp && p.2.remotePort == sp && p.2.remoteAddr == ip.src
          && (match lookup entries p.2.localIndex with
              | some e => e.vlan == frameVlan f && e.addr == ip.dst
              | none => false))
    | _ => none

/-- The kind of the segment that a frame carries for a record in the state given (R101). -/
def segmentKind (x : Session) (state : SessionState) (f : List Byte) : SegmentKind :=
  match readTransport f with
  | some (.tcp _ _ seq ack flags _) => x.sort state seq ack flags (transportPayload f).length
  | _ => .outOfWindow

/-- A segment of a live session at the session keeper (R101 to R105), in ARMING, STANDING or CALLING. -/
def takeSegment (i : Nat) (x : Session) (f : List Byte) (s : State) : State :=
  match segmentKind x x.state f with
  | .peerAck => settle .absorbed (touchSession i (fun x => x.onPeerAck s.time) s)
  | .peerProbe =>
    let kept := offerResult .ack s == .accepted
    let s1 := offerTx .ack .untold (segmentOf (entriesRead s) x x.sndNxt) s
    settle .absorbed (touchSession i (fun x => x.onPeerProbe kept s.time) s1)
  | .data =>
    let a := requestHold f (.session i) true s
    let s1 := touchSession i (fun x => x.onData a.accepted s.time) a.state
    let own : List Report :=
      if x.state = .heardData then [] else [{ cause := .sessionData, origin := some i, frame := some f }]
    settle (holdDisposition a) (reportTwo (highReports a) own s1)
  | .close | .reset =>
    let a := requestHold f (.session i) true s
    let s1 := touchSession i (fun x => x.onEnd s.time) a.state
    settle (holdDisposition a) (reportTwo (highReports a) [lostReport i (some f)] s1)
  | .outOfWindow =>
    settle .discarded (touchSession i (fun x => { x with outOfWindow := inc32 x.outOfWindow }) s)

/-- A segment that reached step 4 before the entry to RETURNING, at its RETURNED record (R111): sorted by the state at
return, which also takes the change of state; no cause of its own is recorded. Still in classification in a new
stand-in, it is settled so too: its ACK is accepted (R153), its hold follows the policy (R115) and a rise of the level
is reported (R120), which is the model's choice (assumption 25). -/
def takeSegmentReturned (i : Nat) (x : Session) (state : SessionState) (f : List Byte) (s : State) : State :=
  match segmentKind x state f with
  | .peerAck =>
    settle .absorbed
      (touchSession i (fun x => { x with peerAcks := inc32 x.peerAcks, lastHeard := some s.time }) s)
  | .peerProbe =>
    settle .absorbed
      (touchSession i (fun x => { x with lastHeard := some s.time })
        (offerTx .ack .untold (segmentOf (entriesRead s) x x.sndNxt) s))
  | .data =>
    let a := requestHold f (.session i) true s
    let s1 :=
      touchSession i
        (fun x =>
          { x with atReturn := some .heardData, dataHeld := if a.accepted then inc32 x.dataHeld else x.dataHeld })
        a.state
    settle (holdDisposition a) (reportAll (highReports a) s1)
  | .close | .reset =>
    let a := requestHold f (.session i) true s
    let s1 := touchSession i (fun x => { x with atReturn := some .closed }) a.state
    settle (holdDisposition a) (reportAll (highReports a) s1)
  | .outOfWindow =>
    settle .discarded (touchSession i (fun x => { x with outOfWindow := inc32 x.outOfWindow }) s)

end Sys2Proof.Machine
end

