-- ==== Sys2Proof/Machine/ResponderOps.lean ====
section
/-! DEFINITION. The identity responder: announcements, reports, defences, address answers, conflicts and queries (chapter 2), and the
port's invitation of the owners of deferred items (R155). -/

namespace Sys2Proof.Machine

open Sys2Proof

/-- An identity entry changed. -/
def modifyEntry (i : Nat) (f : IdentityEntry → IdentityEntry) (s : State) : State :=
  { s with responder := { s.responder with entries := modifyAt s.responder.entries i f } }

/-- An entry has an item in a list built now (R46): ACTIVE address entries with DEFEND, and every group entry. -/
def IdentityEntry.announced (e : IdentityEntry) : Bool :=
  (e.isAddress && e.defend && e.state == .active) || e.isGroup

/-- The announcement list (R8, R46), as the entries' indexes in order. -/
def announcementList (entries : List (Option IdentityEntry)) : List Nat :=
  ((occupied entries).filter (fun p => p.2.announced)).map (·.1)

/-- The lowest-indexed ACTIVE address entry of a kind on a VLAN that a test admits. -/
def sourceEntry (entries : List (Option IdentityEntry)) (kind : EntryKind) (vlan : Nat) (ok : Addr → Bool) : Option Addr :=
  ((occupied entries).find? (fun p =>
    p.2.kind == kind && p.2.vlan == vlan && p.2.state == .active && ok p.2.addr)).map (fun p => p.2.addr)

/-- An address lies in fe80::/10. -/
def isLinkLocal (a : Addr) : Bool := at1 a 0 == 0xFE && at1 a 1 / 64 == 2

/-- The membership report of a group entry (R45). -/
def reportFrame (entries : List (Option IdentityEntry)) (e : IdentityEntry) (form : ReportForm) : List Byte :=
  if e.kind = .group4 then
    report4 form (linkMac entries e) e.vlan ((sourceEntry entries .ipv4 e.vlan (fun _ => true)).getD (zeros 4)) e.addr
  else
    report6 form (linkMac entries e) e.vlan ((sourceEntry entries .ipv6 e.vlan isLinkLocal).getD (zeros 16)) e.addr

/-- The announcement of an address entry (R46). -/
def announcementFrame (entries : List (Option IdentityEntry)) (e : IdentityEntry) : List Byte :=
  if e.kind = .ipv4 then arpAnnouncement (linkMac entries e) e.vlan e.addr
  else unsolicited (linkMac entries e) e.vlan e.addr

/-- The frame and kind of an entry's list item (R46). -/
def listItem (entries : List (Option IdentityEntry)) (e : IdentityEntry) : TxKind × List Byte :=
  if e.isGroup then (.report, reportFrame entries e .extended) else (.announce, announcementFrame entries e)

/-- The list's items offered in order until one finds the transmit queue full; that one and the later ones stay
pending (R47). -/
def offerList : List Nat → State → State
  | [], s => { s with responder := { s.responder with list := [] } }
  | i :: rest, s =>
    match lookup s.responder.entries i with
    | none => offerList rest s
    | some e =>
      let item := listItem s.responder.entries e
      if offerResult item.1 s = .accepted then
        offerList rest (offerTx item.1 (.listItem s.responder.build i) item.2 s)
      else { s with responder := { s.responder with list := i :: rest } }

/-- An entry's pending defence offered (R39). -/
def offerDefence (i : Nat) (s : State) : State :=
  match lookup s.responder.entries i with
  | none => s
  | some e =>
    if e.defence ∧ offerResult .announce s = .accepted then
      modifyEntry i (fun e => { e with defence := false })
        (offerTx .announce (.defence i) (announcementFrame s.responder.entries e) s)
    else s

/-- An entry's due report offered (R45). -/
def offerDueReport (i : Nat) (s : State) : State :=
  match lookup s.responder.entries i with
  | none => s
  | some e =>
    match e.report with
    | none => s
    | some r =>
      if r.due ∧ offerResult .report s = .accepted then
        modifyEntry i (fun e => { e with report := none })
          (offerTx .report (.dueReport i) (reportFrame s.responder.entries e r.form) s)
      else s

/-- The responder's offers at an invitation, in the order of R49: defences, due reports, the list. -/
def responderOffers (s : State) : State :=
  let s1 := (List.range 24).foldl (fun s i => offerDefence i s) s
  let s2 := (List.range 24).foldl (fun s i => offerDueReport i s) s1
  offerList s2.responder.list s2

/-- The owner that offered first has placed an item. -/
def placed (before after : State) : Bool := decide (before.port.txQueue.length < after.port.txQueue.length)

/-- The invitation of the waiting owners (R155): the owner named by the grant turn first, and the turn passes when it
has placed an item. -/
def invite (s : State) : State :=
  if s.controller.standIn.serving = true ∧ s.port.linkUp = true then
    match s.port.turn with
    | .responder =>
      let s1 := responderOffers s
      let s2 := keeperOffers s1
      if placed s s1 then { s2 with port := { s2.port with turn := .keeper } } else s2
    | .keeper =>
      let s1 := keeperOffers s
      let s2 := responderOffers s1
      if placed s s1 then { s2 with port := { s2.port with turn := .responder } } else s2
  else s

/-- The announcement list rebuilt at a LINK_UP (R46, R48): it replaces the list, the pending defences and the reports
due and waiting. -/
def rebuildList (s : State) : State :=
  { s with
    responder :=
      { s.responder with
        list := announcementList s.responder.entries
        build := s.responder.build + 1
        entries :=
          mapTable s.responder.entries (fun e =>
            { e with
              defence := false
              report := match e.report with
                | some r => if r.due then none else some r
                | none => none }) } }

/-- The responder at a PORT_RESET (R48): list and defences discarded; due reports and deadlines kept. -/
def dropAnnouncements (s : State) : State :=
  { s with
    responder :=
      { s.responder with
        list := []
        entries := mapTable s.responder.entries (fun e => { e with defence := false }) } }

/-- The responder at the entry to RETURNING (R17): list, defences and reports abandoned. -/
def abandonItems (s : State) : State :=
  { s with
    responder :=
      { s.responder with
        list := []
        entries := mapTable s.responder.entries (fun e => { e with defence := false, report := none }) } }

/-- An entry has left ACTIVE (R32, R40, R106): its unoffered item leaves the list; in ARMING, STANDING and CALLING its
sessions are lost, and arming may end. -/
def leaveActive (i : Nat) (s : State) : State :=
  let s1 := { s with responder := { s.responder with list := s.responder.list.filter (fun j => j != i) } }
  if s.controller.standIn.serving then checkArmingEnd (loseSessions i s1) else s1

/-- An entry given up or run out: its new state, its pending defence discarded (R32). -/
def IdentityEntry.leave (e : IdentityEntry) (new : EntryState) : IdentityEntry := { e with state := new, defence := false }

/-- The answers-given count raised (R37). Past 2^32 - 1 the manual states no value: a free one (assumption 4). An entry
edited since the frame's taking is not changed (assumption 12). -/
def raiseAnswers (i : Nat) (s : State) : State :=
  if isSuperseded (superseded s).entries i then s
  else
    match lookup s.responder.entries i with
    | none => s
    | some e =>
      if e.answers = BitVec.allOnes 32 then
        { modifyEntry i (fun e => { e with answers := Config.answersPastEnd s.freeCount }) s with
          freeCount := s.freeCount + 1 }
      else modifyEntry i (fun e => { e with answers := e.answers + 1 }) s

/-- An address answer called for (R37), within the entry's budget or forbidden by it. -/
def answerEntry (i : Nat) (e : IdentityEntry) (answer : List Byte) (s : State) : State :=
  if e.budget < (policyRead s).answerLimit then
    let s1 := touchEntry i (fun e => { e with budget := e.budget + 1 }) s
    let s2 := offerTx .answer .untold answer s1
    settle .answered (if offerResult .answer s1 = .accepted then raiseAnswers i s2 else s2)
  else settle .discarded (count .overBudget 1 s)

/-- The entry's last defence, if any, is 10 000 ms or more ago (R39, R40). -/
def IdentityEntry.mayDefend (e : IdentityEntry) (now : Time) : Bool :=
  e.defend &&
    match e.lastDefence with
    | some t => decide (10000 ≤ elapsed now t)
    | none => true

/-- A defence decided (R39): offered at once, or waiting as the pending defence; dropped in ATTENDED and RETURNING
(R27, assumption 16). An entry edited since the frame's taking keeps no pending defence of it (assumption 12). -/
def defendEntry (i : Nat) (e : IdentityEntry) (s : State) : State :=
  let s1 := touchEntry i (fun e => { e with lastDefence := some s.time }) s
  let frame := announcementFrame (entriesRead s) e
  if s.port.linkUp = true ∧ e.defence = false ∧ offerResult .announce s ≠ .deferred then
    offerTx .announce (.defence i) frame s1
  else if s.controller.standIn.serving then touchEntry i (fun e => { e with defence := true }) s1
  else s1

/-- An entry ceded to a conflicting frame (R32, R39). An entry edited since the frame's taking stands, with its list item
and its sessions (R52, R106, assumption 12). -/
def cedeEntry (i : Nat) (s : State) : State :=
  if isSuperseded (superseded s).entries i then s
  else leaveActive i (modifyEntry i (fun e => e.leave .ceded) s)

/-- A conflicting frame (R38, R39): counted, reported, then defended against or ceded to; DISCARDED. -/
def takeConflict (i : Nat) (e : IdentityEntry) (f : List Byte) (s : State) : State :=
  let s1 := count .conflicts 1 (touchEntry i (fun e => { e with conflicts := satAdd 255 e.conflicts 1 }) s)
  let s2 := reportCause { cause := .conflict, origin := some i, frame := some f } s1
  let s3 :=
    if e.mayDefend s.time then defendEntry i e s2
    else cedeEntry i s2
  settle .discarded s3

/-- An entry qualifies to answer (R35, R36); probe says that the request or solicitation is a probe. -/
def IdentityEntry.qualifies (e : IdentityEntry) (probe : Bool) : Bool := e.answer || (e.defend && probe)

/-- The entry with which an ARP packet conflicts (R38). -/
def arpConflict (entries : List (Option IdentityEntry)) (f : List Byte) : Option (Nat × IdentityEntry) :=
  match activeEntry entries .ipv4 (frameVlan f) (slice (layerData f) 14 4) with
  | some p => if slice (layerData f) 8 6 = linkMac entries p.2 then none else some p
  | none => none

/-- The entry that answers an ARP request (R35). -/
def arpTarget (entries : List (Option IdentityEntry)) (f : List Byte) : Option (Nat × IdentityEntry) :=
  if at2 (layerData f) 6 = 1 then
    match activeEntry entries .ipv4 (frameVlan f) (slice (layerData f) 24 4) with
    | some p => if p.2.qualifies (allZero (slice (layerData f) 14 4)) then some p else none
    | none => none
  else none

/-- An ARP packet at the responder (R33, R35, R38). -/
def takeArp (f : List Byte) (s : State) : State :=
  let entries := entriesRead s
  if arpOk (layerData f) then
    match arpConflict entries f with
    | some p => takeConflict p.1 p.2 f s
    | none =>
      match arpTarget entries f with
      | some p => answerEntry p.1 p.2 (arpReply f (linkMac entries p.2) p.2.addr) s
      | none => settle .discarded s
  else settle .discarded s

/-- The entry that answers a neighbour solicitation (R36). -/
def solicitedEntry (entries : List (Option IdentityEntry)) (f : List Byte) (ip : IpFields) : Option (Nat × IdentityEntry) :=
  match activeEntry entries .ipv6 (frameVlan f) (slice ip.payload 8 16) with
  | some p => if p.2.qualifies (allZero ip.src) then some p else none
  | none => none

/-- A neighbour solicitation at the responder (R33, R36). -/
def takeSolicitation (f : List Byte) (ip : IpFields) (s : State) : State :=
  let entries := entriesRead s
  if neighbourOk ip then
    match solicitedEntry entries f ip with
    | some p => answerEntry p.1 p.2 (solicitedAnswer f ip.src (linkMac entries p.2) p.2.addr) s
    | none => settle .discarded s
  else settle .discarded s

/-- The entry with which a neighbour advertisement conflicts (R38). -/
def advertConflict (entries : List (Option IdentityEntry)) (f : List Byte) (ip : IpFields) : Option (Nat × IdentityEntry) :=
  match activeEntry entries .ipv6 (frameVlan f) (slice ip.payload 8 16) with
  | some p => if advertisedMac f ip = linkMac entries p.2 then none else some p
  | none => none

/-- A neighbour advertisement at the responder (R33, R38). -/
def takeAdvertisement (f : List Byte) (ip : IpFields) (s : State) : State :=
  if neighbourOk ip then
    match advertConflict (entriesRead s) f ip with
    | some p => takeConflict p.1 p.2 f s
    | none => settle .discarded s
  else settle .discarded s

/-- A report pending deadline given to an entry (R44): the earlier of two stands, with its form. -/
def IdentityEntry.schedule (e : IdentityEntry) (now : Time) (delay : Nat) (form : ReportForm) : IdentityEntry :=
  let new : PendingReport := { start := now, length := delay, form := form, due := false }
  match e.report with
  | none => { e with report := some new }
  | some r => if !r.due && decide (delay < r.length - elapsed now r.start) then { e with report := some new } else e

/-- The group entries that a query concerns, with the delay each is given (R44). -/
def queriedEntries (entries : List (Option IdentityEntry)) (kind : EntryKind) (vlan : Nat) (group : Addr) (t : Nat) :
    List (Nat × Nat) :=
  let all := (occupied entries).filter (fun p => p.2.kind == kind && p.2.vlan == vlan)
  if allZero group then all.zipIdx.map (fun p => (p.1.1, t * (p.2 + 1) / (all.length + 1)))
  else (all.filter (fun p => p.2.addr == group)).map (fun p => (p.1, t / 2))

/-- A membership query (R43, R44): ABSORBED; it schedules reports in ARMING, STANDING and CALLING only (R27), for the
entries as they stood at the frame's taking (R52). A frame carried over past a cut return that is still in
classification when a new stand-in begins schedules as one of that stand-in (assumption 25). -/
def takeQuery (kind : EntryKind) (vlan : Nat) (group : Addr) (t : Nat) (form : ReportForm) (s : State) : State :=
  if s.controller.standIn.serving then
    settle .absorbed
      ((queriedEntries (entriesRead s) kind vlan group t).foldl
        (fun s p => touchEntry p.1 (fun e => e.schedule s.time p.2 form) s) s)
  else settle .absorbed s

/-- An IGMP query at the responder (R33, R43). -/
def takeIgmpQuery (f : List Byte) (ip : IpFields) (s : State) : State :=
  if igmpOk ip then
    takeQuery .group4 (frameVlan f) (slice ip.payload 4 4) (igmpResponse (at1 ip.payload 1))
      (if ip.payload.length = 8 then .short else .extended) s
  else settle .discarded s

/-- An MLD query at the responder (R33, R43). -/
def takeMldQuery (f : List Byte) (ip : IpFields) (s : State) : State :=
  if mldOk ip then
    takeQuery .group6 (frameVlan f) (slice ip.payload 8 16) (mldResponse (at2 ip.payload 4))
      (if ip.payload.length = 24 then .short else .extended) s
  else settle .discarded s

/-- A frame of a responder kind at the responder (R33). -/
def takeResponderFrame (kind : ResponderKind) (f : List Byte) (s : State) : State :=
  match kind, readIp f with
  | .arp, _ => takeArp f s
  | .solicitation, some ip => takeSolicitation f ip s
  | .advertisement, some ip => takeAdvertisement f ip s
  | .igmpQuery, some ip => takeIgmpQuery f ip s
  | .mldQuery, some ip => takeMldQuery f ip s
  | _, none => settle .discarded s

/-- A report that falls due (R45): offered, and its deadline absent once accepted; otherwise it waits as due. -/
def reportDue (i : Nat) (e : IdentityEntry) (r : PendingReport) (s : State) : State :=
  if s.port.linkUp = true ∧ offerResult .report s = .accepted then
    modifyEntry i (fun e => { e with report := none })
      (offerTx .report (.dueReport i) (reportFrame s.responder.entries e r.form) s)
  else modifyEntry i (fun e => { e with report := some { r with due := true } }) s

end Sys2Proof.Machine
end

