-- ==== Sys2Proof/Machine/StandInOps.lean ====
section
/-! DEFINITION. The course of a stand-in: its start, the settlement of transmitted frames, the loss of the link, and the entry to
RETURNING (chapter 1 and the rules it leans on). -/

namespace Sys2Proof.Machine

open Sys2Proof

/-- The wake unit at HAND OVER (R7): evidence, lock, count and record cleared, WAKEREQ low, timers stopped. -/
def clearWake (depth : Depth) (w : WakeUnit) : WakeUnit :=
  { w with
    record := { emptyRecord with depth := some depth }
    slotA := none
    slotB := none
    lock := false
    uncaptured := 0
    phase := .none
    response := none
    gap := none
    claim := none
    wakereq := false }

/-- An identity entry's runtime at HAND OVER (R28, R41): ACTIVE or EXPIRED, and the mark set where the margin point has
been reached. -/
def IdentityEntry.handOver (e : IdentityEntry) (now : Time) (margin : Nat) : IdentityEntry :=
  let expired := e.isAddress && (e.state == .expired || e.deadlinePassed now)
  { e with
    state := if expired then .expired else .active
    conflicts := 0
    lastDefence := none
    answers := 0
    leaseMark := e.marginReached now margin
    report := none
    budget := 0
    defence := false }

/-- A session record at HAND OVER (R96): started, and LOST where its local entry is EXPIRED. -/
def Session.handOver (x : Session) (entries : List (Option IdentityEntry)) (now : Time) : Session :=
  match lookup entries x.localIndex with
  | some e => if e.state = .expired then (x.start now).lose else x.start now
  | none => x.start now

/-- The LEASE reports of HAND OVER (R41), in index order. -/
def leaseReports (entries : List (Option IdentityEntry)) : List Report :=
  ((occupied entries).filter (fun p => p.2.leaseMark)).map
    (fun p => { cause := .lease, origin := some p.1, frame := none })

/-- The SESSION_LOST reports of HAND OVER (R7), in index order. -/
def startLossReports (sessions : List (Option Session)) : List Report :=
  ((occupied sessions).filter (fun p => p.2.state == .lost)).map (fun p => lostReport p.1 none)

/-- The sessions that fall due (R97), in index order. -/
def dueSessions (s : State) : List Nat :=
  ((occupied s.keeper.sessions).filter (fun p => p.2.dueReached s.time)).map (·.1)

/-- The blocks cleared and started at HAND OVER (R7), before any cause the hand-over produces. A frame still in
classification stands (assumption 25). -/
def startBlocks (depth : Depth) (tag : Byte) (s : State) : State :=
  let s1 := changeState .arming .handedOver s
  let entries := mapTable s.responder.entries (fun e => e.handOver s.time s.wake.policy.leaseMargin)
  { s1 with
    controller := { s1.controller with depth := some depth }
    wake := clearWake depth s1.wake
    classifier :=
      { s1.classifier with rules := s1.classifier.rules.map (fun r => { r with hits := 0, overflows := 0 }) }
    responder :=
      { entries := entries, list := announcementList entries, build := s1.responder.build + 1,
        settledDone := 0, settledRefused := 0 }
    keeper := { s1.keeper with sessions := mapTable s1.keeper.sessions (fun x => x.handOver entries s.time) }
    host := { s1.host with inFlight := some tag } }

/-- The sessions due at the taking begin their rounds (R96, R97; assumption 13). -/
def beginDueRounds (s : State) : State := (dueSessions s).foldl (fun s i => beginRound i s) s

/-- The list's items offered while the link is UP (R47). -/
def offerListNow (s : State) : State := if s.port.linkUp then offerList s.responder.list s else s

/-- HAND OVER taken (R7, R8): the blocks are started, the causes of the hand-over recorded, the list and the probes due
offered; arming ends with the taking where the link is DOWN or the list is empty. A classification carried over past a
cut return stands and goes on in the new stand-in (assumption 25). -/
def startStandIn (depth : Depth) (tag : Byte) (s : State) : State :=
  let s1 := startBlocks depth tag s
  let s2 := reportTwo (leaseReports s1.responder.entries) (startLossReports s1.keeper.sessions) s1
  let s3 := beginDueRounds (offerListNow s2)
  if s3.port.linkUp then checkArmingEnd s3 else endArming true s3

/-- The wake unit at the entry to RETURNING (R17, R148). -/
def freezeWake (outcome : WakeOutcome) (w : WakeUnit) : WakeUnit :=
  { w with
    record := { w.record with outcome := outcome }
    phase := .none
    response := none
    gap := none
    claim := none
    wakereq := false }

/-- A frame that stands at step 4 when RETURNING is entered has reached it (R111, assumption 11). -/
def markReached4 (c : Classifier) : Classifier :=
  { c with current := c.current.map (fun f => { f with reached4 := f.step == .session }) }

/-- The entry to RETURNING (R17), and the end of the return where nothing is left to deliver (R21). -/
def enterReturning (reason : Reason) (outcome : WakeOutcome) (s : State) : State :=
  let s1 := abandonItems (changeState .returning reason s)
  let s2 :=
    { s1 with
      controller := { s1.controller with drain := true }
      wake := freezeWake outcome s1.wake
      keeper := { s1.keeper with sessions := mapTable s1.keeper.sessions Session.returned }
      classifier := markReached4 s1.classifier }
  checkDrained (sendingStep s2)

/-- A session told of the settlement of a probe (R99, R154). -/
def settleProbeAt (i number : Nat) (done : Bool) (s : State) : State :=
  modifySession i (fun x => x.settleProbe number done s.time) s

/-- An item of the present list settled in ARMING (R8, R10, R154). -/
def settleListItem (build : Nat) (done : Bool) (s : State) : State :=
  if s.controller.standIn = .arming ∧ build = s.responder.build then
    checkArmingEnd
      { s with
        responder :=
          { s.responder with
            settledDone := s.responder.settledDone + (if done then 1 else 0)
            settledRefused := s.responder.settledRefused + (if done then 0 else 1) } }
  else s

/-- The owner of a settled slot told of it (R154). -/
def tellOwner (owner : TxOwner) (done : Bool) (s : State) : State :=
  match owner with
  | .listItem build _ => settleListItem build done s
  | .probe i number => settleProbeAt i number done s
  | .untold | .defence _ | .dueReport _ => s

/-- A settlement of the oldest transmit slot (R154): ignored on an empty queue. -/
def settleTx (done : Bool) (s : State) : State :=
  match s.port.txQueue with
  | [] => s
  | slot :: rest =>
    let s1 := { s with port := { s.port with txQueue := rest } }
    let s2 := count (if done then .transmitted slot.kind else .txRefused) 1 s1
    invite (tellOwner slot.owner done s2)

/-- The link going from UP to DOWN (R157, R160, R171): the notice, then the LINK cause, then the end of arming. -/
def loseLink (record : LinkRecord) (s : State) : State :=
  let s1 := queueNotice (linkNotice s false record) { s with port := { s.port with linkUp := false } }
  let s2 := reportCause { cause := .link, origin := none, frame := none } s1
  if s2.controller.standIn = .arming then endArming true s2 else s2

/-- The link going from DOWN to UP (R158). -/
def raiseLink (s : State) : State :=
  let s1 := queueNotice (linkNotice s true .linkUp) { s with port := { s.port with linkUp := true } }
  let s2 :=
    if s1.controller.standIn = .standing ∨ s1.controller.standIn = .calling then rebuildList s1 else s1
  sendingStep (invite s2)

/-- The frames a PORT_RESET loses from the transmit queue that are counted as dropped (R159). -/
def countDropped (kind : TxKind) (s : State) : State :=
  count (.dropped kind) (s.port.txQueue.filter (fun t => t.kind == kind)).length s

/-- A PORT_RESET at the port and the blocks it reaches, before the link goes DOWN (R159). -/
def clearPort (s : State) : State :=
  let s1 := countDropped .ack (countDropped .answer (count .receiveRefused s.port.rxBuffer.length s))
  resetDeliveries
    (requeueProbes (dropAnnouncements { s1 with port := { s1.port with rxBuffer := [], txQueue := [] } }))

end Sys2Proof.Machine
end

