-- ==== Sys2Proof/Machine/Classify.lean ====
section
/-! DEFINITION. The frame classifier: the taking of a frame and the seven steps of its classification (chapter 3). -/

namespace Sys2Proof.Machine

open Sys2Proof

/-! The taking. -/

/-- Nothing of a classification has been edited yet. -/
def noneSuperseded : Superseded := { entries := [], sessions := [], templates := [], rules := none, policy := none }

/-- The classification of a frame begun (R51, R52). -/
def beginClassification (f : List Byte) (s : State) : State :=
  { s with
    classifier :=
      { s.classifier with
        current := some { frame := f, step := .length, reached4 := false, superseded := noneSuperseded } } }

/-- The oldest frame off the receive buffer, counted, with the READY of R152. -/
def dequeueFrame (rest : List (List Byte)) (s : State) : State :=
  sendReady (count .framesTaken 1 { s with port := { s.port with rxBuffer := rest } })

/-- A frame held without classification in RETURNING (R20). -/
def holdAtReturn (f : List Byte) (s : State) : State :=
  let a := requestHold f .atReturn false s
  settle (holdDisposition a) a.state

/-- The taking of the oldest frame (R51), where the classifier is free and a frame waits. -/
def takeFrame (s : State) : State :=
  match s.classifier.current, s.port.rxBuffer with
  | none, f :: rest =>
    match s.controller.standIn with
    | .attended => settle .discarded (dequeueFrame rest s)
    | .arming | .standing | .calling => beginClassification f (dequeueFrame rest s)
    | .returning => holdAtReturn f (dequeueFrame rest s)
  | _, _ => s

/-! Steps. -/

/-- A step's event, made where the frame in classification stands at that step (R52). -/
def atStep (k : ClassStep) (run : Classification → State → State) (s : State) : State :=
  match s.classifier.current with
  | some c => if c.step = k then run c s else s
  | none => s

/-- The frame goes on to a step. -/
def advance (k : ClassStep) (s : State) : State :=
  { s with
    classifier := { s.classifier with current := s.classifier.current.map (fun c => { c with step := k }) } }

/-- A frame that fails step 1, 2 or 3 (R58). -/
def filterOut (s : State) : State := settle .discarded (count .filtered 1 s)

/-- A filter's step: on to the next, or filtered out. -/
def filterStep (ok : Bool) (next : ClassStep) (s : State) : State := if ok then advance next s else filterOut s

/-- Step 1 (R53). -/
def stepLength (c : Classification) (s : State) : State := filterStep (lengthOk c.frame) .vlan s

/-- Step 2 (R56). -/
def stepVlan (c : Classification) (s : State) : State :=
  filterStep (linkOfVlan (entriesRead s) (frameVlan c.frame)).isSome .destination s

/-- The MAC of the frame's LINK entry (R56). -/
def frameLinkMac (entries : List (Option IdentityEntry)) (f : List Byte) : Mac :=
  match linkOfVlan entries (frameVlan f) with
  | some e => e.addr
  | none => []

/-- An entry of the frame's VLAN admits its destination MAC (R57, the group and solicited-node rows). -/
def entryAdmits (v : Nat) (dst : Mac) (e : IdentityEntry) : Bool :=
  e.vlan == v &&
    match e.kind with
    | .group4 => dst == groupMac4 e.addr
    | .group6 => dst == groupMac6 e.addr
    | .ipv6 => dst == solicitedMac e.addr
    | .link | .ipv4 => false

/-- The destination check of R57. -/
def destinationAdmitted (entries : List (Option IdentityEntry)) (f : List Byte) : Bool :=
  dstMac f == frameLinkMac entries f || dstMac f == broadcastMac || dstMac f == allHostsMac
    || dstMac f == allNodesMac || (occupied entries).any (fun p => entryAdmits (frameVlan f) (dstMac f) p.2)

/-- Step 3 (R57). -/
def stepDestination (c : Classification) (s : State) : State :=
  filterStep (destinationAdmitted (entriesRead s) c.frame) .session s

/-- A record that R111 lets a carried-over segment finish at: RETURNED, and live at the entry to RETURNING. -/
def Session.liveAtReturn (x : Session) : Bool :=
  x.state == .returned &&
    match x.atReturn with
    | some st => st.live
    | none => false

/-- Step 4 (R59, R111). A frame marked by R111 looks for RETURNED records alone, in the session table as it stood at the
frame's taking; in a new stand-in that is the record which SESSION PUT or SESSION DROP has put away since (R52), and what
becomes of the frame there is the model's choice (assumption 25). -/
def stepSession (c : Classification) (s : State) : State :=
  if c.reached4 then
    match sessionMatch (entriesRead s) (sessionsRead s) Session.liveAtReturn c.frame with
    | some p => takeSegmentReturned p.1 p.2 (p.2.atReturn.getD .ready) c.frame s
    | none => advance .responder s
  else
    match sessionMatch (entriesRead s) (sessionsRead s) (fun x => x.state.live) c.frame with
    | some p => takeSegment p.1 p.2 c.frame s
    | none => advance .responder s

/-- Step 5 (R60). -/
def stepResponder (c : Classification) (s : State) : State :=
  match responderKind c.frame with
  | some k => takeResponderFrame k c.frame s
  | none => advance .rule s

/-! Rules. -/

/-- A well-formed IP frame that a test admits. -/
def ipMeets (f : List Byte) (ok : IpFields → Bool) : Bool :=
  match readIp f with
  | some ip => ok ip
  | none => false

/-- The destination identity index is met (R64). -/
def destIndexMet (entries : List (Option IdentityEntry)) (f : List Byte) (i : Nat) : Bool :=
  match lookup entries i with
  | none => false
  | some e =>
    e.vlan == frameVlan f &&
      (if e.kind = .link then dstMac f == e.addr else ipMeets f (fun ip => ip.dst == e.addr))

/-- A payload byte meets a pattern byte under its mask (R64). -/
def byteMet (q : Byte × Byte × Byte) : Bool := q.1 &&& q.2.2 == q.2.1 &&& q.2.2

/-- The payload pattern is met (R64). -/
def patternMet (f : List Byte) (p : Pattern) : Bool :=
  decide (p.offset + p.bytes.length ≤ (transportPayload f).length)
    && ((slice (transportPayload f) p.offset p.bytes.length).zip (p.bytes.zip p.mask)).all byteMet

/-- The destination port lies in a range (R63). -/
def portMet (f : List Byte) (r : Nat × Nat) : Bool :=
  match destPort f with
  | some p => decide (r.1 ≤ p) && decide (p ≤ r.2)
  | none => false

/-- The flags byte in the bits of the mask equals the value (R63). -/
def flagsMet (f : List Byte) (m : Byte × Byte) : Bool :=
  match tcpFlags f with
  | some fl => fl &&& m.1 == m.2
  | none => false

/-- A source prefix is met (R63). -/
def prefixMet (f : List Byte) (p : SourcePrefix) : Bool :=
  ipMeets f (fun ip => ip.src.length == p.addr.length && samePrefixBits p.bits ip.src p.addr)

/-- A frame meets every match field present (R61, R63, R64). -/
def fieldsMet (entries : List (Option IdentityEntry)) (f : List Byte) (m : MatchFields) : Bool :=
  presentOk m.vlan (fun v => frameVlan f == v)
    && presentOk m.etherType (fun v => etherType f == v)
    && presentOk m.ipVersion (fun v => ipMeets f (fun ip => ip.version == v))
    && presentOk m.ipProto (fun v => ipMeets f (fun ip => ip.proto == v))
    && presentOk m.source (prefixMet f)
    && presentOk m.destIndex (destIndexMet entries f)
    && presentOk m.ports (portMet f)
    && presentOk m.tcpFlags (flagsMet f)
    && presentOk m.pattern (patternMet f)

/-- The first rule that matches (R61), with the place it holds now and its position. -/
def firstMatch (entries : List (Option IdentityEntry)) (rules : List (Rule × Option Nat)) (f : List Byte) :
    Option ((Rule × Option Nat) × Nat) :=
  rules.zipIdx.find? (fun p => fieldsMet entries f p.1.1.fields)

/-- The cause RULE of a rule's position (R68). -/
def ruleReport (n : Nat) (f : List Byte) : Report := { cause := .rule, origin := some n, frame := some f }

/-- A hold that a rule or the default action asks for, with a report of the classifier's own after it (R68, R71). -/
def holdFor (source : HoldSource) (own : List Report) (f : List Byte) (s : State) : State :=
  let a := requestHold f source false s
  settle (holdDisposition a) (reportTwo (highReports a) own a.state)

/-- A well-formed ICMP echo request of a version (R69, first part). -/
def echoRequest (ip : IpFields) : Bool :=
  decide (8 ≤ ip.payload.length) && at1 ip.payload 1 == 0 &&
    if ip.version = 4 then
      ip.proto == 1 && ip.fragment == 0 && !ip.more && at1 ip.payload 0 == 8 && sumCorrect ip.payload
    else ip.proto == 58 && at1 ip.payload 0 == 128 && icmp6Correct ip

/-- An echo request qualifies (R69): its IP fields. -/
def echoFields (entries : List (Option IdentityEntry)) (f : List Byte) : Option IpFields :=
  match readIp f with
  | none => none
  | some ip =>
    if echoRequest ip
        ∧ (activeEntry entries (if ip.version = 4 then .ipv4 else .ipv6) (frameVlan f) ip.dst).isSome then
      some ip
    else none

/-- An answer of a rule's offered: the frame is ANSWERED whatever becomes of it (R69, R70, R90). -/
def offerAnswer (answer : List Byte) (s : State) : State := settle .answered (offerTx .answer .untold answer s)

/-- ECHO (R69). -/
def runEcho (f : List Byte) (s : State) : State :=
  match echoFields (entriesRead s) f with
  | some ip => offerAnswer (echoReply f ip (frameLinkMac (entriesRead s) f)) s
  | none => settle .discarded s

/-- TEMPLATE (R70, R85, R89). A rule names a stored template (R65, R83); without one the frame is DISCARDED. -/
def runTemplate (t : Nat) (f : List Byte) (s : State) : State :=
  match lookup (templatesRead s) t with
  | none => settle .discarded s
  | some x =>
    match buildTemplate x f (frameLinkMac (entriesRead s) f) with
    | some answer => offerAnswer answer (touchTemplate t (fun x => { x with built := inc32 x.built }) s)
    | none =>
      settle .discarded (count .templateShort 1 (touchTemplate t (fun x => { x with failed := inc32 x.failed }) s))

/-- A rule's action applied to a frame (R68 to R70). -/
def runAction (a : RuleAction) (n : Nat) (f : List Byte) (s : State) : State :=
  match a with
  | .discard => settle .discarded s
  | .hold => holdFor (.rule n) [] f s
  | .wake => settle .discarded (reportCause (ruleReport n f) s)
  | .holdWake => holdFor (.rule n) [ruleReport n f] f s
  | .echo => runEcho f s
  | .template t => runTemplate t f s

/-- An overflow action is the action of its name (R74). -/
def OverflowAction.action (o : OverflowAction) : RuleAction :=
  match o with
  | .discard => .discard
  | .hold => .hold
  | .wake => .wake

/-- A matching rule's budget counted and its action or overflow action applied (R73). -/
def runRule (r : Rule) (place : Option Nat) (n : Nat) (f : List Byte) (s : State) : State :=
  if r.hits < r.limit then runAction r.action n f (touchRule place (fun r => { r with hits := r.hits + 1 }) s)
  else
    runAction r.overflow.action n f (touchRule place (fun r => { r with overflows := inc32 r.overflows }) s)

/-- Step 6 (R61, R73). -/
def stepRule (c : Classification) (s : State) : State :=
  match firstMatch (entriesRead s) (rulesRead s) c.frame with
  | some m => runRule m.1.1 m.1.2 m.2 c.frame s
  | none => advance .default s

/-- Step 7 (R71). -/
def stepDefault (c : Classification) (s : State) : State :=
  match (policyRead s).defaultAction with
  | .discard => settle .discarded s
  | .hold => holdFor .byDefault [] c.frame s

/-! The meanings. -/

/-- FRAME_TAKEN (R51). -/
def execFrameTaken (s : State) : Host.Outcome State Fault Refusal := .next (takeFrame s)

/-- LENGTH_CHECK (R53). -/
def execLengthCheck (s : State) : Host.Outcome State Fault Refusal := .next (atStep .length stepLength s)

/-- VLAN_CHECK (R56). -/
def execVlanCheck (s : State) : Host.Outcome State Fault Refusal := .next (atStep .vlan stepVlan s)

/-- DESTINATION_CHECK (R57). -/
def execDestinationCheck (s : State) : Host.Outcome State Fault Refusal :=
  .next (atStep .destination stepDestination s)

/-- SESSION_DISPATCH (R59). -/
def execSessionDispatch (s : State) : Host.Outcome State Fault Refusal := .next (atStep .session stepSession s)

/-- RESPONDER_DISPATCH (R60). -/
def execResponderDispatch (s : State) : Host.Outcome State Fault Refusal :=
  .next (atStep .responder stepResponder s)

/-- RULE_MATCH (R61). -/
def execRuleMatch (s : State) : Host.Outcome State Fault Refusal := .next (atStep .rule stepRule s)

/-- DEFAULT_ACTION (R71). -/
def execDefaultAction (s : State) : Host.Outcome State Fault Refusal := .next (atStep .default stepDefault s)

end Sys2Proof.Machine
end

