-- ==== Sys2Proof/Decode.lean ====
section
/-! DEFINITION. What bits spell: the opcode table gives no row any bits, so no word spells a command; the request codes of the host
link and the records of the station link are read here (chapter 11). -/

namespace Sys2Proof

open Sys2Proof.Machine

/-- No row of spec/opcode_table.json gives any bits, so no word spells a command (assumption 20). -/
def decodeTableWord (_nbits _w : Nat) : Option Instr := none

/-- The request kind codes of section 11.1. -/
def requestOfCode (code : Byte) : Option RequestKind :=
  match code.toNat with
  | 0x01 => some .nop
  | 0x02 => some .handOver
  | 0x03 => some .takeBack
  | 0x04 => some .identityPut
  | 0x05 => some .identityDrop
  | 0x06 => some .identityList
  | 0x07 => some .rulePut
  | 0x08 => some .ruleDrop
  | 0x09 => some .ruleList
  | 0x0A => some .templatePut
  | 0x0B => some .templateDrop
  | 0x0C => some .sessionPut
  | 0x0D => some .sessionGet
  | 0x0E => some .sessionDrop
  | 0x0F => some .policySet
  | 0x10 => some .policyGet
  | 0x11 => some .wakeRecord
  | 0x12 => some .evidenceRead
  | 0x13 => some .evidenceRelease
  | 0x14 => some .holdStatus
  | 0x15 => some .status
  | 0x16 => some .clearAll
  | 0x18 => some .templateList
  | _ => none

/-- A record of the network controller's direction (section 11.6), whole and correct. -/
inductive StationIn where
  | rxFrame (frame : List Byte)
  | txDone | txRefused | deliverDone | linkUp | linkDown | portReset
  deriving DecidableEq, Repr

/-- The record that a kind code and a body make, where the kind is one of the seven and the body's length suits it
(R150). -/
def stationRecord (kind : Nat) (body : List Byte) : Option StationIn :=
  if kind = 0x01 then
    if 1 ≤ body.length ∧ body.length ≤ 1600 then some (.rxFrame body) else none
  else if body.length ≠ 0 then none
  else
    match kind with
    | 0x02 => some .txDone
    | 0x03 => some .txRefused
    | 0x04 => some .deliverDone
    | 0x05 => some .linkUp
    | 0x06 => some .linkDown
    | 0x07 => some .portReset
    | _ => none

/-- The correct record that the bytes after a gap begin with (R150, R185), if they do: sync 0x5C, a length of at most
1600, the whole body and its check received, the check good. Bytes after the check and before the next gap begin
no record (assumption 8). -/
def decodeRecord (l : List Byte) : Option StationIn :=
  let len := at2 l 2
  if at1 l 0 ≠ 0x5C ∨ 1600 < len ∨ l.length < 6 + len then none
  else if slice l (4 + len) 2 ≠ checkBytes (l.take (4 + len)) then none
  else stationRecord (at1 l 1) (slice l 4 len)

/-- The request kind code of a request (section 11.1). -/
def requestCode (k : RequestKind) : Byte :=
  match k with
  | .nop => 0x01
  | .handOver => 0x02
  | .takeBack => 0x03
  | .identityPut => 0x04
  | .identityDrop => 0x05
  | .identityList => 0x06
  | .rulePut => 0x07
  | .ruleDrop => 0x08
  | .ruleList => 0x09
  | .templatePut => 0x0A
  | .templateDrop => 0x0B
  | .sessionPut => 0x0C
  | .sessionGet => 0x0D
  | .sessionDrop => 0x0E
  | .policySet => 0x0F
  | .policyGet => 0x10
  | .wakeRecord => 0x11
  | .evidenceRead => 0x12
  | .evidenceRelease => 0x13
  | .holdStatus => 0x14
  | .status => 0x15
  | .clearAll => 0x16
  | .templateList => 0x18

/-- The kind code of a record of the network controller's direction (section 11.6). -/
def StationIn.code (r : StationIn) : Byte :=
  match r with
  | .rxFrame _ => 0x01
  | .txDone => 0x02
  | .txRefused => 0x03
  | .deliverDone => 0x04
  | .linkUp => 0x05
  | .linkDown => 0x06
  | .portReset => 0x07

/-- The body of a record of the network controller's direction. -/
def StationIn.body (r : StationIn) : List Byte :=
  match r with
  | .rxFrame frame => frame
  | .txDone | .txRefused | .deliverDone | .linkUp | .linkDown | .portReset => []

/-- The bytes of a record of the network controller's direction (section 11.6). -/
def StationIn.bytes (r : StationIn) : List Byte :=
  let h := [0x5C, r.code] ++ be16 r.body.length ++ r.body
  h ++ checkBytes h

/-- The command of a record (the rows RX_FRAME to PORT_RESET). -/
def StationIn.command (r : StationIn) : Instr :=
  match r with
  | .rxFrame frame => .rxFrame frame
  | .txDone => .txDone
  | .txRefused => .txRefused
  | .deliverDone => .deliverDone
  | .linkUp => .linkUp
  | .linkDown => .linkDown
  | .portReset => .portReset

end Sys2Proof
end

