-- ==== Sys2Proof/Machine/RequestOps.lean ====
section
/-! DEFINITION. What the requests share: when the host's frame is taken, replies and refusals, the answer to a read from a start index,
and what an edit leaves for the classification in progress (R52, R165, R168, R169). -/

namespace Sys2Proof.Machine

open Sys2Proof

/-- Case 4 of R165: the frame out of the transaction is WAIT, the reply slot holds a reply, or a request is in flight
(R168). -/
def portBusy (s : State) : Bool :=
  (match s.host.frameOut with
    | some f => f.kind == .wait
    | none => false)
    || s.host.reply.isSome || s.host.inFlight.isSome

/-- The previous outcome set at an HCS rise (R166). -/
def setPrevious (o : FrameOutcome) (s : State) : State := { s with host := { s.host with previous := o } }

/-- A host frame judged NOT_TAKEN_BUSY (R165 case 4). -/
def notTakenBusy (s : State) : State := count .hostBusy 1 (setPrevious .notTakenBusy s)

/-- A whole and correct host frame of a request kind (R165 cases 4 and 6): taken by the executor unless the port is busy
(assumption 6). -/
def hostRequest (run : State → State) (s : State) : State :=
  if portBusy s then notTakenBusy s else run (setPrevious .taken s)

/-- A refused request's reply: the status alone (R169). -/
def refuse (tag : Byte) (status : Status) (s : State) : State := produceReply tag [status.code] s

/-- An OK reply with the rest of its body. -/
def okReply (tag : Byte) (rest : List Byte) (s : State) : State := produceReply tag (Status.ok.code :: rest) s

/-- A request judged by its checks (R169): refused with the first status that fails, or carried out. -/
def judged (tag : Byte) (check : Option Status) (carryOut : State → State) (s : State) : State :=
  match check with
  | some status => refuse tag status s
  | none => carryOut s

/-- A read whose body is one start index below a bound: BAD_LENGTH, then BAD_FIELD (R31, R67, R84, R95, R127). -/
def startCheck (bound : Nat) (body : List Byte) : Option Status :=
  if body.length ≠ 1 then some .badLength
  else if bound ≤ at1 body 0 then some .badField
  else none

/-- A request without a body: BAD_LENGTH (R136, R137, R140, R173, R176). -/
def emptyCheck (body : List Byte) : Option Status := if body.length ≠ 0 then some .badLength else none

/-- The checks that open every edit: its length, then the state ATTENDED (R5). -/
def editCheck (lengthOk : Bool) (s : State) : Option Status :=
  if lengthOk = false then some .badLength
  else if s.controller.standIn ≠ .attended then some .wrongState
  else none

/-! Edits and the classification in progress (R52). -/

/-- An item as it stood before its first edit since the taking. -/
def keepItem {α : Type} (i : Nat) (x : Option α) (kept : List (Nat × Option α)) : List (Nat × Option α) :=
  if isSuperseded kept i then kept else (i, x) :: kept

/-- Every item of a table as it stood before its first edit since the taking. -/
def keepTable {α : Type} (l : List (Option α)) (kept : List (Nat × Option α)) : List (Nat × Option α) :=
  l.zipIdx.foldl (fun k p => keepItem p.2 p.1 k) kept

/-- What the classification in progress reads of edited items, changed; nothing where none is in progress. -/
def supersede (f : Superseded → Superseded) (s : State) : State :=
  { s with
    classifier :=
      { s.classifier with current := s.classifier.current.map (fun c => { c with superseded := f c.superseded }) } }

/-- An identity index written or emptied. -/
def writeEntry (i : Nat) (e : Option IdentityEntry) (s : State) : State :=
  let s1 := supersede (fun k => { k with entries := keepItem i (lookup s.responder.entries i) k.entries }) s
  { s1 with responder := { s1.responder with entries := s1.responder.entries.set i e } }

/-- A session index written or emptied. -/
def writeSession (i : Nat) (x : Option Session) (s : State) : State :=
  let s1 := supersede (fun k => { k with sessions := keepItem i (lookup s.keeper.sessions i) k.sessions }) s
  { s1 with keeper := { s1.keeper with sessions := s1.keeper.sessions.set i x } }

/-- A template index written or emptied. -/
def writeTemplate (i : Nat) (t : Option Template) (s : State) : State :=
  let s1 := supersede (fun k => { k with templates := keepItem i (lookup s.builder.templates i) k.templates }) s
  { s1 with builder := { templates := s1.builder.templates.set i t } }

/-- A new rule list, with the place that each rule of the old one holds in it. -/
def writeRules (new : List Rule) (place : Nat → Option Nat) (s : State) : State :=
  let s1 := supersede (fun k => { k with rules := some ((rulesRead s).map (fun p => (p.1, p.2.bind place))) }) s
  { s1 with classifier := { s1.classifier with rules := new } }

/-- A new policy record. -/
def writePolicy (p : Policy) (s : State) : State :=
  let s1 := supersede (fun k => { k with policy := some (policyRead s) }) s
  { s1 with wake := { s1.wake with policy := p } }

end Sys2Proof.Machine
end

