-- ==== Sys2Proof/Machine/ReadRequests.lean ====
section
/-! DEFINITION. The requests taken in every state: NOP, the reads, EVIDENCE RELEASE and STATUS with CLEAR (R31, R67, R84, R95, R127, R136,
R137, R140, R173, R176, R183). -/

namespace Sys2Proof.Machine

open Sys2Proof

/-- NOP (R173). -/
def reqNop (tag : Byte) (body : List Byte) (s : State) : State :=
  judged tag (emptyCheck body)
    (fun s => okReply tag (be32 s.time.toNat ++ [byte s.host.notices.length] ++ be16 s.host.lost) s) s

/-- IDENTITY LIST (R31). -/
def reqIdentityList (tag : Byte) (body : List Byte) (s : State) : State :=
  judged tag (startCheck 24 body)
    (fun s =>
      produceReply tag (piecesBody [] [] (recordsFrom (at1 body 0) s.responder.entries (entryRecord s.time))) s) s

/-- The records of RULE LIST from a start position. -/
def ruleRecords (start : Nat) (rules : List Rule) : List (Nat × List Byte) :=
  (rules.zipIdx.filter (fun p => decide (start ≤ p.2))).map (fun p => (p.2, ruleRecord p.2 p.1))

/-- RULE LIST (R67). -/
def reqRuleList (tag : Byte) (body : List Byte) (s : State) : State :=
  judged tag (startCheck 32 body)
    (fun s => produceReply tag (piecesBody [] [] (ruleRecords (at1 body 0) s.classifier.rules)) s) s

/-- TEMPLATE LIST (R84). -/
def reqTemplateList (tag : Byte) (body : List Byte) (s : State) : State :=
  judged tag (startCheck 8 body)
    (fun s =>
      produceReply tag
        (piecesBody [] (be16 (storedBytes s.builder.templates))
          (recordsFrom (at1 body 0) s.builder.templates (templateRecord s.classifier.rules))) s) s

/-- SESSION GET (R95). -/
def reqSessionGet (tag : Byte) (body : List Byte) (s : State) : State :=
  judged tag (startCheck 12 body)
    (fun s => produceReply tag (piecesBody [] [] (recordsFrom (at1 body 0) s.keeper.sessions sessionRecord)) s) s

/-- POLICY GET (R176). -/
def reqPolicyGet (tag : Byte) (body : List Byte) (s : State) : State :=
  judged tag (emptyCheck body) (fun s => okReply tag (policyBytes s.wake.policy) s) s

/-- WAKE RECORD (R140). -/
def reqWakeRecord (tag : Byte) (body : List Byte) (s : State) : State :=
  judged tag (emptyCheck body)
    (fun s =>
      okReply tag
        (wakeRecordBytes s.wake.record ++ [s.wake.phase.code] ++ timeLeft s.wake s.time
          ++ [flagByte s.wake.wakereq, flagByte s.wake.hostupFiltered]) s) s

/-- EVIDENCE READ (R136). -/
def reqEvidenceRead (tag : Byte) (body : List Byte) (s : State) : State :=
  judged tag (emptyCheck body)
    (fun s =>
      okReply tag
        ([flagByte s.wake.lock, 0] ++ be16 s.wake.uncaptured ++ evidenceBytes s.wake.slotA
          ++ evidenceBytes s.wake.slotB) s) s

/-- The evidence slots that are filled. -/
def slotsFilled (w : WakeUnit) : Nat := bit w.slotA.isSome + bit w.slotB.isSome

/-- Both slots emptied, the lock cleared, the count 0 (R137). -/
def releaseEvidence (s : State) : State :=
  { s with wake := { s.wake with slotA := none, slotB := none, lock := false, uncaptured := 0 } }

/-- EVIDENCE RELEASE (R137). -/
def reqEvidenceRelease (tag : Byte) (body : List Byte) (s : State) : State :=
  judged tag (emptyCheck body)
    (fun s => okReply tag ([byte (slotsFilled s.wake)] ++ be16 s.wake.uncaptured) (releaseEvidence s)) s

/-- The records of HOLD STATUS from a start position. -/
def heldRecords (start : Nat) (q : List HeldFrame) : List (Nat × List Byte) :=
  (q.zipIdx.filter (fun p => decide (start ≤ p.2))).map (fun p => (p.2, heldSummary p.2 p.1))

/-- HOLD STATUS (R127); the summary follows the count byte (assumption 18). -/
def reqHoldStatus (tag : Byte) (body : List Byte) (s : State) : State :=
  judged tag (startCheck 64 body)
    (fun s => produceReply tag (piecesBody (holdSummary s) [] (heldRecords (at1 body 0) s.hold.queue)) s) s

/-- STATUS with CLEAR (R183): the reply carries the counters as they stand, and they are then 0. -/
def reqStatusClear (tag : Byte) (s : State) : State :=
  { produceReply tag (statusBody s) s with counters := zeroCounters }

/-- STATUS (R183). -/
def reqStatus (tag : Byte) (body : List Byte) (s : State) : State :=
  if body.length ≠ 1 then refuse tag .badLength s
  else if at1 body 0 = 0 then produceReply tag (statusBody s) s
  else if at1 body 0 = 1 then reqStatusClear tag s
  else refuse tag .badField s

/-! The meanings. -/

def execNop (tag : Byte) (body : List Byte) (s : State) : Host.Outcome State Fault Refusal :=
  .next (hostRequest (reqNop tag body) s)

def execIdentityList (tag : Byte) (body : List Byte) (s : State) : Host.Outcome State Fault Refusal :=
  .next (hostRequest (reqIdentityList tag body) s)

def execRuleList (tag : Byte) (body : List Byte) (s : State) : Host.Outcome State Fault Refusal :=
  .next (hostRequest (reqRuleList tag body) s)

def execTemplateList (tag : Byte) (body : List Byte) (s : State) : Host.Outcome State Fault Refusal :=
  .next (hostRequest (reqTemplateList tag body) s)

def execSessionGet (tag : Byte) (body : List Byte) (s : State) : Host.Outcome State Fault Refusal :=
  .next (hostRequest (reqSessionGet tag body) s)

def execPolicyGet (tag : Byte) (body : List Byte) (s : State) : Host.Outcome State Fault Refusal :=
  .next (hostRequest (reqPolicyGet tag body) s)

def execWakeRecord (tag : Byte) (body : List Byte) (s : State) : Host.Outcome State Fault Refusal :=
  .next (hostRequest (reqWakeRecord tag body) s)

def execEvidenceRead (tag : Byte) (body : List Byte) (s : State) : Host.Outcome State Fault Refusal :=
  .next (hostRequest (reqEvidenceRead tag body) s)

def execEvidenceRelease (tag : Byte) (body : List Byte) (s : State) : Host.Outcome State Fault Refusal :=
  .next (hostRequest (reqEvidenceRelease tag body) s)

def execHoldStatus (tag : Byte) (body : List Byte) (s : State) : Host.Outcome State Fault Refusal :=
  .next (hostRequest (reqHoldStatus tag body) s)

def execStatus (tag : Byte) (body : List Byte) (s : State) : Host.Outcome State Fault Refusal :=
  .next (hostRequest (reqStatus tag body) s)

def execStatusClear (tag : Byte) (s : State) : Host.Outcome State Fault Refusal :=
  .next (hostRequest (reqStatusClear tag) s)

end Sys2Proof.Machine
end

