-- ==== Sys2Proof/Machine/StandInRequests.lean ====
section
/-! DEFINITION. The requests of the stand-in and the device: HAND OVER, TAKE BACK and CLEAR ALL (R6, R7, R16, R177). -/

namespace Sys2Proof.Machine

open Sys2Proof

/-- Checks 4 to 6 of HAND OVER (R6). -/
def handOverCheck (s : State) : Option Status :=
  if tableComplete s.responder.entries = false then some .incomplete
  else if referencesOk s.responder.entries s.keeper.sessions = false then some .noEntry
  else if anyReturned s.keeper.sessions then some .staleSession
  else none

/-- HAND OVER (R6, R7). -/
def reqHandOver (tag : Byte) (body : List Byte) (s : State) : State :=
  judged tag (editCheck (body.length == 1) s)
    (fun s =>
      match depthOf (at1 body 0) with
      | none => refuse tag .badField s
      | some depth => judged tag (handOverCheck s) (startStandIn depth tag) s)
    s

/-- The TAKE BACK reply (R16): the frozen record, and the frames and bytes held at the taking. -/
def takeBackReply (outcome : WakeOutcome) (s : State) : List Byte :=
  wakeRecordBytes { s.wake.record with outcome := outcome }
    ++ [byte s.hold.queue.length] ++ be16 (bytesOf s.hold.queue)

/-- TAKE BACK taken (R16): its reply, and the entry to RETURNING. -/
def takeBack (tag : Byte) (outcome : WakeOutcome) (s : State) : State :=
  enterReturning .takenBack outcome (okReply tag (takeBackReply outcome s) s)

/-- TAKE BACK (R16). -/
def reqTakeBack (tag : Byte) (body : List Byte) (s : State) : State :=
  judged tag (emptyCheck body)
    (fun s =>
      match s.controller.standIn with
      | .standing => takeBack tag .self s
      | .calling => takeBack tag .claimed s
      | .attended | .arming | .returning => refuse tag .wrongState s)
    s

/-- Everything that the classification in progress still reads, kept before every table is emptied (R52, R177). -/
def supersedeAll (s : State) : State :=
  supersede
    (fun k =>
      { entries := keepTable s.responder.entries k.entries
        sessions := keepTable s.keeper.sessions k.sessions
        templates := keepTable s.builder.templates k.templates
        rules := some ((rulesRead s).map (fun p => (p.1, none)))
        policy := some (policyRead s) }) s

/-- The blocks as CLEAR ALL leaves them (R24, R177). -/
def clearTables (s : State) : State :=
  let s1 := supersedeAll s
  { s1 with
    controller := { s1.controller with depth := none }
    responder :=
      { s1.responder with entries := List.replicate 24 none, list := [], settledDone := 0, settledRefused := 0 }
    classifier := { s1.classifier with rules := [] }
    builder := { templates := List.replicate 8 none }
    keeper := { s1.keeper with sessions := List.replicate 12 none }
    hold := { s1.hold with queue := [], level := .below }
    wake :=
      { s1.wake with
        record := emptyRecord
        slotA := none
        slotB := none
        lock := false
        uncaptured := 0
        policy := defaultPolicy }
    counters := zeroCounters }

/-- CLEAR ALL (R177). -/
def reqClearAll (tag : Byte) (body : List Byte) (s : State) : State :=
  judged tag (editCheck (body.length == 0) s) (fun s => okReply tag [] (clearTables s)) s

/-! The meanings. -/

def execHandOver (tag : Byte) (body : List Byte) (s : State) : Host.Outcome State Fault Refusal :=
  .next (hostRequest (reqHandOver tag body) s)

def execTakeBack (tag : Byte) (body : List Byte) (s : State) : Host.Outcome State Fault Refusal :=
  .next (hostRequest (reqTakeBack tag body) s)

def execClearAll (tag : Byte) (body : List Byte) (s : State) : Host.Outcome State Fault Refusal :=
  .next (hostRequest (reqClearAll tag body) s)

end Sys2Proof.Machine
end

