-- ==== Sys2Proof/Machine/TableRequests.lean ====
section
/-! DEFINITION. The edit requests of the tables: identity, rules, templates, sessions and the policy (R29, R30, R65, R66, R81, R83, R93, R94,
R175). -/

namespace Sys2Proof.Machine

open Sys2Proof

/-! Identity. -/

/-- The entries at indexes other than the one named. -/
def otherEntries (entries : List (Option IdentityEntry)) (i : Nat) : List IdentityEntry :=
  ((occupied entries).filter (fun p => p.1 != i)).map (·.2)

/-- Check 7 of R29: the entry would double another. -/
def entryDoubled (entries : List (Option IdentityEntry)) (i : Nat) (e : IdentityEntry) : Bool :=
  (otherEntries entries i).any (fun x =>
    (x.kind == e.kind && x.addr == e.addr && x.vlan == e.vlan)
      || (e.kind == .link && x.kind == .link && x.vlan == e.vlan))

/-- Checks 6 to 8 of R29. -/
def entryCheck (entries : List (Option IdentityEntry)) (i : Nat) (e : IdentityEntry) : Option Status :=
  if e.kind ≠ .link ∧ linkNamed entries e = false then some .noEntry
  else if entryDoubled entries i e then some .duplicate
  else if e.kind = .link ∧ 4 ≤ ((otherEntries entries i).filter (fun x => x.kind == .link)).length then some .noRoom
  else none

/-- IDENTITY PUT (R29). -/
def reqIdentityPut (tag : Byte) (body : List Byte) (s : State) : State :=
  judged tag (editCheck (identityPutLengthOk body) s)
    (fun s =>
      match identityPutEntry s.time body with
      | none => refuse tag .badField s
      | some p =>
        judged tag (entryCheck s.responder.entries p.1 p.2) (fun s => okReply tag [] (writeEntry p.1 (some p.2) s)) s)
    s

/-- An entry that another entry or a session names may not be dropped (R30). -/
def entryInUse (s : State) (i : Nat) (e : IdentityEntry) : Bool :=
  if e.kind = .link then (otherEntries s.responder.entries i).any (fun x => x.kind != .link && x.link == i)
  else if e.isAddress then (occupied s.keeper.sessions).any (fun p => p.2.localIndex == i)
  else false

/-- IDENTITY DROP (R30). -/
def reqIdentityDrop (tag : Byte) (body : List Byte) (s : State) : State :=
  judged tag (editCheck (body.length == 1) s)
    (fun s =>
      if 24 ≤ at1 body 0 then refuse tag .badField s
      else
        match lookup s.responder.entries (at1 body 0) with
        | none => refuse tag .noEntry s
        | some e =>
          if entryInUse s (at1 body 0) e then refuse tag .inUse s
          else okReply tag [] (writeEntry (at1 body 0) none s))
    s

/-! Rules. -/

/-- The template that a rule's action names is stored (R65 check 5). -/
def actionNamed (templates : List (Option Template)) (a : RuleAction) : Bool :=
  match a with
  | .template t => (lookup templates t).isSome
  | .discard | .hold | .wake | .holdWake | .echo => true

/-- Checks 4 to 6 of R65. -/
def rulePutCheck (p : Nat) (r : Rule) (s : State) : Option Status :=
  if s.classifier.rules.length < p then some .badField
  else if actionNamed s.builder.templates r.action = false then some .noEntry
  else if 32 ≤ s.classifier.rules.length then some .noRoom
  else none

/-- A rule placed at a position (R65): the rules from there on move one place. -/
def insertRule (p : Nat) (r : Rule) (s : State) : State :=
  writeRules (s.classifier.rules.take p ++ r :: s.classifier.rules.drop p)
    (fun i => some (if p ≤ i then i + 1 else i)) s

/-- A rule removed from a position (R66): the rules after it move one place back. -/
def removeRule (p : Nat) (s : State) : State :=
  writeRules (s.classifier.rules.eraseIdx p)
    (fun i => if i = p then none else some (if p < i then i - 1 else i)) s

/-- The reply of RULE PUT and RULE DROP: OK and the new number of rules. -/
def ruleCountReply (tag : Byte) (s : State) : State := okReply tag [byte s.classifier.rules.length] s

/-- RULE PUT (R65). -/
def reqRulePut (tag : Byte) (body : List Byte) (s : State) : State :=
  judged tag (editCheck (rulePutLengthOk body) s)
    (fun s =>
      match rulePutRule body with
      | none => refuse tag .badField s
      | some r =>
        judged tag (rulePutCheck (at1 body 0) r s) (fun s => ruleCountReply tag (insertRule (at1 body 0) r s)) s)
    s

/-- RULE DROP (R66). -/
def reqRuleDrop (tag : Byte) (body : List Byte) (s : State) : State :=
  judged tag (editCheck (body.length == 1) s)
    (fun s =>
      if 32 ≤ at1 body 0 then refuse tag .badField s
      else if s.classifier.rules.length ≤ at1 body 0 then refuse tag .noEntry s
      else ruleCountReply tag (removeRule (at1 body 0) s))
    s

/-! Templates. -/

/-- The template bytes stored with a template at an index (R81 check 5). -/
def storedWith (i : Nat) (t : Template) (s : State) : Nat :=
  t.bytes.length + storedBytes (s.builder.templates.set i none)

/-- The reply of TEMPLATE PUT and TEMPLATE DROP: OK and the bytes now stored. -/
def storedReply (tag : Byte) (s : State) : State := okReply tag (be16 (storedBytes s.builder.templates)) s

/-- TEMPLATE PUT (R81). -/
def reqTemplatePut (tag : Byte) (body : List Byte) (s : State) : State :=
  judged tag (editCheck (templatePutLengthOk body) s)
    (fun s =>
      match templatePutTemplate body with
      | none => refuse tag .badField s
      | some p =>
        if 1536 < storedWith p.1 p.2 s then refuse tag .noRoom s
        else storedReply tag (writeTemplate p.1 (some p.2) s))
    s

/-- TEMPLATE DROP (R83). -/
def reqTemplateDrop (tag : Byte) (body : List Byte) (s : State) : State :=
  judged tag (editCheck (body.length == 1) s)
    (fun s =>
      if 8 ≤ at1 body 0 then refuse tag .badField s
      else if (lookup s.builder.templates (at1 body 0)).isNone then refuse tag .noEntry s
      else if s.classifier.rules.any (namesTemplate (at1 body 0)) then refuse tag .inUse s
      else storedReply tag (writeTemplate (at1 body 0) none s))
    s

/-! Sessions. -/

/-- Check 6 of R93: another record is of the same connection. -/
def sessionDoubled (s : State) (i : Nat) (addr : Addr) (x : Session) : Bool :=
  (occupied s.keeper.sessions).any (fun p => p.1 != i && sameConnection s.responder.entries addr x p.2)

/-- Checks 4 to 6 of R93. -/
def sessionCheck (i : Nat) (x : Session) (s : State) : Option Status :=
  match localEntry s.responder.entries x with
  | none => some .noEntry
  | some e =>
    if x.remoteAddr.length ≠ e.addr.length ∨ isUnicast x.remoteAddr = false then some .badField
    else if sessionDoubled s i e.addr x then some .duplicate
    else none

/-- SESSION PUT (R93). -/
def reqSessionPut (tag : Byte) (body : List Byte) (s : State) : State :=
  judged tag (editCheck (sessionPutLengthOk body) s)
    (fun s =>
      match sessionPutRecord s.keeper.nextProbe body with
      | none => refuse tag .badField s
      | some p => judged tag (sessionCheck p.1 p.2 s) (fun s => okReply tag [] (writeSession p.1 (some p.2) s)) s)
    s

/-- SESSION DROP (R94). -/
def reqSessionDrop (tag : Byte) (body : List Byte) (s : State) : State :=
  judged tag (editCheck (body.length == 1) s)
    (fun s =>
      if 12 ≤ at1 body 0 then refuse tag .badField s
      else if (lookup s.keeper.sessions (at1 body 0)).isNone then refuse tag .noEntry s
      else okReply tag [] (writeSession (at1 body 0) none s))
    s

/-! The policy. -/

/-- POLICY SET (R175). -/
def reqPolicySet (tag : Byte) (body : List Byte) (s : State) : State :=
  judged tag (editCheck (body.length == 12) s)
    (fun s =>
      match policySetRecord body with
      | none => refuse tag .badField s
      | some p => okReply tag [] (writePolicy p s))
    s

/-! The meanings. -/

def execIdentityPut (tag : Byte) (body : List Byte) (s : State) : Host.Outcome State Fault Refusal :=
  .next (hostRequest (reqIdentityPut tag body) s)

def execIdentityDrop (tag : Byte) (body : List Byte) (s : State) : Host.Outcome State Fault Refusal :=
  .next (hostRequest (reqIdentityDrop tag body) s)

def execRulePut (tag : Byte) (body : List Byte) (s : State) : Host.Outcome State Fault Refusal :=
  .next (hostRequest (reqRulePut tag body) s)

def execRuleDrop (tag : Byte) (body : List Byte) (s : State) : Host.Outcome State Fault Refusal :=
  .next (hostRequest (reqRuleDrop tag body) s)

def execTemplatePut (tag : Byte) (body : List Byte) (s : State) : Host.Outcome State Fault Refusal :=
  .next (hostRequest (reqTemplatePut tag body) s)

def execTemplateDrop (tag : Byte) (body : List Byte) (s : State) : Host.Outcome State Fault Refusal :=
  .next (hostRequest (reqTemplateDrop tag body) s)

def execSessionPut (tag : Byte) (body : List Byte) (s : State) : Host.Outcome State Fault Refusal :=
  .next (hostRequest (reqSessionPut tag body) s)

def execSessionDrop (tag : Byte) (body : List Byte) (s : State) : Host.Outcome State Fault Refusal :=
  .next (hostRequest (reqSessionDrop tag body) s)

def execPolicySet (tag : Byte) (body : List Byte) (s : State) : Host.Outcome State Fault Refusal :=
  .next (hostRequest (reqPolicySet tag body) s)

end Sys2Proof.Machine
end

