-- ==== Sys2Proof/Machine/HostLink.lean ====
section
/-! DEFINITION. The transactions of the host link: the choice of the frame out at the HCS fall, its release and the judgement of the host's
frame at the HCS rise (R163 to R168). -/

namespace Sys2Proof.Machine

open Sys2Proof

/-- The frame out chosen at an HCS fall (R163). -/
def chooseFrame (h : HostPort) : FrameOut :=
  match h.inFlight with
  | some tag => { kind := .wait, tag := tag, outcome := h.previous, body := [] }
  | none =>
    match h.reply with
    | some r => { kind := .reply, tag := r.tag, outcome := h.previous, body := r.body }
    | none =>
      match h.notices with
      | n :: _ => { kind := .notice, tag := 0, outcome := h.previous, body := n.body }
      | [] => { kind := .empty, tag := 0, outcome := h.previous, body := [] }

/-- HCS falls (R163); the line cannot fall while it is low. -/
def fallHcs (s : State) : State :=
  if s.host.hcsLow then s
  else { s with host := { s.host with hcsLow := true, assembly := [], frameOut := some (chooseFrame s.host) } }

/-- The port with its frame out delivered (R164): a reply leaves its slot, a notice the front of the queue. -/
def HostPort.deliver (h : HostPort) (kind : FrameKind) : HostPort :=
  match kind with
  | .reply => { h with reply := none }
  | .notice => { h with notices := h.notices.drop 1 }
  | .wait | .empty => h

/-- The release of the frame out at an HCS rise after n bytes clocked (R164), with the ATTN level it leaves (R172). -/
def releaseFrame (n : Nat) (h : HostPort) : HostPort :=
  match h.frameOut with
  | none => h
  | some f =>
    if 8 + f.body.length ≤ n then { h.deliver f.kind with attn := attnLevel (h.deliver f.kind) } else h

/-- The host's frame in the bytes clocked: header, body of the length it gives, check. -/
def frameEnd (clocked : List Byte) : Nat := 8 + at2 clocked 4

/-- What the assembly buffer holds at the rise (R165): nothing without the sync byte; no body past 1600 bytes. -/
def assembled (clocked : List Byte) : List Byte :=
  if at1 clocked 0 ≠ 0xA6 then []
  else if 1600 < at2 clocked 4 then clocked.take 6
  else clocked.take (frameEnd clocked)

/-- The check of the host's frame matches its header and body (R165 case 3). -/
def checkGood (clocked : List Byte) : Bool :=
  decide (at2 clocked 4 ≤ 1600)
    && slice clocked (6 + at2 clocked 4) 2 == checkBytes (clocked.take (6 + at2 clocked 4))

/-- The body of the host's frame. -/
def frameBody (clocked : List Byte) : List Byte := slice clocked 6 (at2 clocked 4)

/-- The judgement of the host's frame (R165); busy is case 4. -/
def judgeFrame (busy : Bool) (clocked : List Byte) : FrameOutcome :=
  if at1 clocked 0 ≠ 0xA6 then .none
  else if clocked.length < 6 ∨ clocked.length < frameEnd clocked then .short
  else if checkGood clocked = false then .badCheck
  else if busy then .notTakenBusy
  else if (requestOfCode (clocked.getD 1 0)).isNone then .unknownKind
  else .taken

/-- The counter that a judgement raises (R165). -/
def countJudgement (o : FrameOutcome) (s : State) : State :=
  match o with
  | .short => count .hostShort 1 s
  | .badCheck => count .hostBadCheck 1 s
  | .notTakenBusy => count .hostBusy 1 s
  | .none | .unknownKind | .taken => s

/-- A taken request carried out by its kind (section 9.5). -/
def runRequest (k : RequestKind) (tag : Byte) (body : List Byte) (s : State) : State :=
  match k with
  | .nop => reqNop tag body s
  | .handOver => reqHandOver tag body s
  | .takeBack => reqTakeBack tag body s
  | .identityPut => reqIdentityPut tag body s
  | .identityDrop => reqIdentityDrop tag body s
  | .identityList => reqIdentityList tag body s
  | .rulePut => reqRulePut tag body s
  | .ruleDrop => reqRuleDrop tag body s
  | .ruleList => reqRuleList tag body s
  | .templatePut => reqTemplatePut tag body s
  | .templateDrop => reqTemplateDrop tag body s
  | .templateList => reqTemplateList tag body s
  | .sessionPut => reqSessionPut tag body s
  | .sessionGet => reqSessionGet tag body s
  | .sessionDrop => reqSessionDrop tag body s
  | .policySet => reqPolicySet tag body s
  | .policyGet => reqPolicyGet tag body s
  | .wakeRecord => reqWakeRecord tag body s
  | .evidenceRead => reqEvidenceRead tag body s
  | .evidenceRelease => reqEvidenceRelease tag body s
  | .holdStatus => reqHoldStatus tag body s
  | .status => reqStatus tag body s
  | .clearAll => reqClearAll tag body s

/-- The end of a transaction at the port (R164): HCS high, no frame out, the host's frame assembled. -/
def endTransaction (clocked : List Byte) (s : State) : State :=
  { s with
    host :=
      { releaseFrame clocked.length s.host with hcsLow := false, frameOut := none, assembly := assembled clocked } }

/-- Case 4 of R165 as it stands after the release. -/
def busyAfter (n : Nat) (s : State) : Bool := portBusy { s with host := releaseFrame n s.host }

/-- The judgement made, counted and, for a taken request, carried out (R165, R166, R168). -/
def takeJudged (o : FrameOutcome) (clocked : List Byte) (s : State) : State :=
  let s1 := countJudgement o (setPrevious o s)
  if o = .taken then
    match requestOfCode (clocked.getD 1 0) with
    | some k => runRequest k (clocked.getD 2 0) (frameBody clocked) s1
    | none => s1
  else s1

/-- The rise that ends a transaction whose beginning the device did not see (R167). -/
def riseUnseen (s : State) : State :=
  notTakenBusy { s with host := { s.host with hcsLow := false, frameOut := none, unseen := false } }

/-- HCS rises after the bytes given were clocked (R164, R165, R167); the line cannot rise while it is high. -/
def riseHcs (clocked : List Byte) (s : State) : State :=
  if s.host.hcsLow = false then s
  else if s.host.unseen then riseUnseen s
  else takeJudged (judgeFrame (busyAfter clocked.length s) clocked) clocked (endTransaction clocked s)

/-! The meanings. -/

/-- HCS_FALL (R163). -/
def execHcsFall (s : State) : Host.Outcome State Fault Refusal := .next (fallHcs s)

/-- HCS_RISE (R164, R165, R167). -/
def execHcsRise (clocked : List Byte) (s : State) : Host.Outcome State Fault Refusal := .next (riseHcs clocked s)

end Sys2Proof.Machine
end

