-- ==== Sys2Proof/Machine/Lines.lean ====
section
/-! DEFINITION. The full reset and the HOSTUP line with its filter (R1, R141 to R147, R161, R167). -/

namespace Sys2Proof.Machine

open Sys2Proof

/-- The WAIT frame of a transaction in progress at the end of a full reset (R167). -/
def unseenWait : FrameOut := { kind := .wait, tag := 0, outcome := .none, body := [] }

/-- The device at the end of a full reset (R1, R161), with the levels of HCS and HOSTUP then: a transaction in progress
was not seen to begin (R167), and a HOSTUP line that is high is measured from the reset's end (R141). -/
def fullReset (hcsLow hostupHigh : Bool) (s : State) : State :=
  let r := State.reset
  { r with
    wake := { r.wake with hostupLine := hostupHigh, hostupSince := if hostupHigh then some r.time else none }
    host :=
      { r.host with
        hcsLow := hcsLow
        unseen := hcsLow
        frameOut := if hcsLow then some unseenWait else none }
    freeCount := s.freeCount
    pending := s.pending }

/-- The HOSTUP line at a level (R141): a change of the line starts the measure afresh, or ends it where the line is back
at the filtered level. -/
def moveHostup (high : Bool) (s : State) : State :=
  if high = s.wake.hostupLine then s
  else
    { s with
      wake :=
        { s.wake with
          hostupLine := high
          hostupSince := if high = s.wake.hostupFiltered then none else some s.time } }

/-- The filter has measured 20 ms of a level other than the filtered one (R141). -/
def hostupReady (s : State) : Bool :=
  s.wake.hostupLine != s.wake.hostupFiltered &&
    match s.wake.hostupSince with
    | some t => decide (20 ≤ elapsed s.time t)
    | none => false

/-- The filtered level takes the line's level (R141). -/
def filterHostup (high : Bool) (s : State) : State :=
  { s with wake := { s.wake with hostupFiltered := high, hostupSince := none } }

/-- What a HOSTUP rise taken does by state and phase (section 1.8, R144, R145, R147). -/
def hostupRise (s : State) : State :=
  match s.controller.standIn with
  | .standing => startClaim s
  | .calling => if s.wake.phase = .asserting ∨ s.wake.phase = .gap then startClaim s else s
  | .attended | .arming | .returning => s

/-- The claim window stopped by a fall in STANDING (R147). -/
def stopClaim (s : State) : State := { s with wake := { s.wake with claim := none, phase := .none } }

/-- What a HOSTUP fall taken does by state and phase (section 1.8, R22, R146, R147). -/
def hostupFall (s : State) : State :=
  match s.controller.standIn with
  | .standing => if s.wake.phase = .claim then stopClaim s else s
  | .calling => if s.wake.phase = .claim then startAttempt s else s
  | .returning => cutReturn s
  | .attended | .arming => s

/-- The filter's event on a high line, where it is ready. -/
def takeRise (s : State) : State :=
  if hostupReady s ∧ s.wake.hostupLine = true then hostupRise (filterHostup true s) else s

/-- The filter's event on a low line, where it is ready. -/
def takeFall (s : State) : State :=
  if hostupReady s ∧ s.wake.hostupLine = false then hostupFall (filterHostup false s) else s

/-! The meanings. -/

/-- FULL_RESET (R1). -/
def execFullReset (hcsLow hostupHigh : Bool) (s : State) : Host.Outcome State Fault Refusal :=
  .next (fullReset hcsLow hostupHigh s)

/-- HOSTUP_LINE_CHANGE (R141). -/
def execHostupLineChange (high : Bool) (s : State) : Host.Outcome State Fault Refusal := .next (moveHostup high s)

/-- HOSTUP_RISE_TAKEN (R141). -/
def execHostupRiseTaken (s : State) : Host.Outcome State Fault Refusal := .next (takeRise s)

/-- HOSTUP_FALL_TAKEN (R141). -/
def execHostupFallTaken (s : State) : Host.Outcome State Fault Refusal := .next (takeFall s)

end Sys2Proof.Machine
end

