-- ==== Sys2Proof/Machine/Station.lean ====
section
/-! DEFINITION. The records from the network controller (R150 to R160, R122 to R124, R185). -/

namespace Sys2Proof.Machine

open Sys2Proof

/-- A record discarded as incorrect (R150, R185). -/
def recordError (s : State) : State := count .recordErrors 1 s

/-- An RX_FRAME (R151); a body of a length that does not suit the kind makes the record incorrect (R150). -/
def takeRxFrame (f : List Byte) (s : State) : State :=
  if f.length = 0 ∨ 1600 < f.length then recordError s
  else if s.port.rxBuffer.length < 6 then
    count .framesReceived 1 { s with port := { s.port with rxBuffer := s.port.rxBuffer ++ [f] } }
  else sendReady (count .receiveRefused 1 s)

/-- A DELIVER_DONE (R122): in RETURNING the sending step follows, and the return may end (R21). -/
def takeDeliverAnswer (s : State) : State := checkDrained (sendingStep (takeDeliverDone s))

/-- A LINK_UP (R158): nothing while the link is UP. -/
def takeLinkUp (s : State) : State := if s.port.linkUp then s else raiseLink s

/-- A LINK_DOWN (R157): nothing while the link is DOWN. -/
def takeLinkDown (s : State) : State := if s.port.linkUp then loseLink .linkDown s else s

/-- A PORT_RESET (R159). In RETURNING, one that empties the receive buffer while nothing else is left ends the return
DRAINED, by R21 (assumption 28). -/
def takePortReset (s : State) : State :=
  let s1 := clearPort s
  let s2 := if s.port.linkUp then loseLink .portReset s1 else s1
  checkDrained (sendRecord (.ready 6) s2)

/-- A correct record by its kind. -/
def takeRecord (r : StationIn) (s : State) : State :=
  match r with
  | .rxFrame f => takeRxFrame f s
  | .txDone => settleTx true s
  | .txRefused => settleTx false s
  | .deliverDone => takeDeliverAnswer s
  | .linkUp => takeLinkUp s
  | .linkDown => takeLinkDown s
  | .portReset => takePortReset s

/-- The bytes between two gaps (R150, R185): discarded and counted unless they begin with a correct record. A stretch of
clocks that holds no whole byte, where no record has begun, is counted once too, which is the model's choice
(assumption 8). -/
def takeBytes (bytes : List Byte) (s : State) : State :=
  match decodeRecord bytes with
  | some r => takeRecord r s
  | none => recordError s

/-! The meanings. -/

/-- RX_FRAME (R151). -/
def execRxFrame (frame : List Byte) (s : State) : Host.Outcome State Fault Refusal := .next (takeRxFrame frame s)

/-- TX_DONE (R154). -/
def execTxDone (s : State) : Host.Outcome State Fault Refusal := .next (settleTx true s)

/-- TX_REFUSED (R154). -/
def execTxRefused (s : State) : Host.Outcome State Fault Refusal := .next (settleTx false s)

/-- DELIVER_DONE (R122). -/
def execDeliverDone (s : State) : Host.Outcome State Fault Refusal := .next (takeDeliverAnswer s)

/-- LINK_UP (R158). -/
def execLinkUp (s : State) : Host.Outcome State Fault Refusal := .next (takeLinkUp s)

/-- LINK_DOWN (R157). -/
def execLinkDown (s : State) : Host.Outcome State Fault Refusal := .next (takeLinkDown s)

/-- PORT_RESET (R159). -/
def execPortReset (s : State) : Host.Outcome State Fault Refusal := .next (takePortReset s)

/-- STATION_RECORD_ERROR (R185). -/
def execStationRecordError (bytes : List Byte) (s : State) : Host.Outcome State Fault Refusal := .next (takeBytes bytes s)

end Sys2Proof.Machine
end

