-- ==== Sys2Proof/Machine/Timers.lean ====
section
/-! DEFINITION. The expiries of the part's own timers (R41, R42, R45, R72, R97, R100, R107, R144, R145, R147), each an event of its owner
where the timer runs and has reached its length (R179). -/

namespace Sys2Proof.Machine

open Sys2Proof

/-! Period classes. -/

/-- A period-class timer has reached its period (R72). -/
def periodReady (c : PeriodClass) (s : State) : Bool :=
  decide (periodLength c ≤ elapsed s.time (s.classifier.periods.get c))

/-- The hit counts of a class zeroed (R72). -/
def zeroHits (c : PeriodClass) (rules : List Rule) : List Rule :=
  rules.map (fun r => if r.period = c then { r with hits := 0 } else r)

/-- The budget counts of the responder zeroed (R37). -/
def zeroBudgets (s : State) : State :=
  { s with
    responder := { s.responder with entries := mapTable s.responder.entries (fun e => { e with budget := 0 }) } }

/-- The expiry of a class (R72). -/
def expirePeriod (c : PeriodClass) (s : State) : State :=
  let s1 :=
    { s with
      classifier :=
        { s.classifier with
          rules := zeroHits c s.classifier.rules
          periods := s.classifier.periods.restart c s.time } }
  if c = .p1 then zeroBudgets s1 else s1

/-- PERIOD_EXPIRY where it is ready. -/
def takePeriod (c : PeriodClass) (s : State) : State := if periodReady c s then expirePeriod c s else s

/-! Leases and reports. -/

/-- The margin point of an entry is reached in a stand-in and not yet reported (R41). -/
def marginReady (e : IdentityEntry) (s : State) : Bool :=
  s.controller.standIn.serving && e.isAddress && !e.leaseMark
    && e.marginReached s.time s.wake.policy.leaseMargin

/-- The margin point reached (R41): the mark and the cause. -/
def reportLease (i : Nat) (s : State) : State :=
  reportCause { cause := .lease, origin := some i, frame := none } (modifyEntry i (fun e => { e with leaseMark := true }) s)

/-- LEASE_MARGIN_REACHED where it is ready. -/
def takeMargin (i : Nat) (s : State) : State :=
  match lookup s.responder.entries i with
  | some e => if marginReady e s then reportLease i s else s
  | none => s

/-- The lease deadline of an entry passes (R42). -/
def leaseReady (e : IdentityEntry) (s : State) : Bool :=
  e.isAddress && e.state != .expired && e.deadlinePassed s.time

/-- The entry becomes EXPIRED, with the effects of leaving ACTIVE where it was ACTIVE (R32, R42). -/
def expireEntry (i : Nat) (e : IdentityEntry) (s : State) : State :=
  let s1 := modifyEntry i (fun e => e.leave .expired) s
  if e.state = .active then leaveActive i s1 else s1

/-- LEASE_DEADLINE where it is ready. -/
def takeLeaseDeadline (i : Nat) (s : State) : State :=
  match lookup s.responder.entries i with
  | some e => if leaseReady e s then expireEntry i e s else s
  | none => s

/-- The report pending deadline of an entry, where it is reached in a stand-in (R45). -/
def reportReady (e : IdentityEntry) (s : State) : Option PendingReport :=
  if s.controller.standIn.serving then e.report.filter (fun r => r.reached s.time) else none

/-- REPORT_DEADLINE where it is ready. -/
def takeReportDeadline (i : Nat) (s : State) : State :=
  match lookup s.responder.entries i with
  | some e =>
    match reportReady e s with
    | some r => reportDue i e r s
    | none => s
  | none => s

/-! Sessions. -/

/-- A due timer has expired in a stand-in (R97). -/
def dueReady (x : Session) (s : State) : Bool := s.controller.standIn.serving && x.dueReached s.time

/-- DUE_EXPIRY where it is ready. -/
def takeDue (i : Nat) (s : State) : State :=
  match lookup s.keeper.sessions i with
  | some x => if dueReady x s then beginRound i s else s
  | none => s

/-- A probe timer has expired in a stand-in (R100, R107). -/
def probeReady (x : Session) (s : State) : Bool := s.controller.standIn.serving && x.probeTimerReached s.time

/-- PROBE_TIMER_EXPIRY where it is ready. -/
def takeProbeTimer (i : Nat) (s : State) : State :=
  match lookup s.keeper.sessions i with
  | some x =>
    if probeReady x s then (if s.port.linkUp then probeTimeout i x s else probeTimeoutDown i s) else s
  | none => s

/-! The calling sequence. -/

/-- The wake-response timer has expired (R144). -/
def responseReady (s : State) : Bool :=
  s.controller.standIn == .calling && s.wake.phase == .asserting && timerReady s.wake.response s.time

/-- The retry gap begun (R144). -/
def startGap (s : State) : State :=
  { s with
    wake := { s.wake with wakereq := false, response := none, gap := startTimer s 1000, phase := .gap } }

/-- WAKE_RESPONSE_EXPIRY where it is ready. -/
def takeResponse (s : State) : State := if responseReady s then startGap s else s

/-- The retry gap has expired (R145). -/
def gapReady (s : State) : Bool :=
  s.controller.standIn == .calling && s.wake.phase == .gap && timerReady s.wake.gap s.time

/-- The attempts are exhausted (R14, R145). -/
def giveUp (s : State) : State :=
  changeState .standing .gaveUp
    { s with
      wake :=
        { s.wake with record := { s.wake.record with outcome := .lost }, wakereq := false, gap := none, phase := .none } }

/-- The expiry of the retry gap (R145). -/
def endGap (s : State) : State :=
  if s.wake.record.attempts ≤ s.wake.policy.retries then startAttempt s else giveUp s

/-- RETRY_GAP_EXPIRY where it is ready. -/
def takeGap (s : State) : State := if gapReady s then endGap s else s

/-- The claim window has expired (R147). -/
def claimReady (s : State) : Bool :=
  (s.controller.standIn == .standing || s.controller.standIn == .calling) && s.wake.phase == .claim
    && timerReady s.wake.claim s.time

/-- CLAIM_WINDOW_EXPIRY where it is ready: the self-return (R15). -/
def takeClaim (s : State) : State := if claimReady s then enterReturning .selfReturn .selfReturn s else s

/-! The meanings. -/

/-- PERIOD_EXPIRY (R72). -/
def execPeriodExpiry (cls : PeriodClass) (s : State) : Host.Outcome State Fault Refusal := .next (takePeriod cls s)

/-- LEASE_MARGIN_REACHED (R41). -/
def execLeaseMarginReached (entry : Nat) (s : State) : Host.Outcome State Fault Refusal := .next (takeMargin entry s)

/-- LEASE_DEADLINE (R42). -/
def execLeaseDeadline (entry : Nat) (s : State) : Host.Outcome State Fault Refusal := .next (takeLeaseDeadline entry s)

/-- REPORT_DEADLINE (R45). -/
def execReportDeadline (entry : Nat) (s : State) : Host.Outcome State Fault Refusal := .next (takeReportDeadline entry s)

/-- DUE_EXPIRY (R97). -/
def execDueExpiry (session : Nat) (s : State) : Host.Outcome State Fault Refusal := .next (takeDue session s)

/-- PROBE_TIMER_EXPIRY (R100, R107). -/
def execProbeTimerExpiry (session : Nat) (s : State) : Host.Outcome State Fault Refusal := .next (takeProbeTimer session s)

/-- WAKE_RESPONSE_EXPIRY (R144). -/
def execWakeResponseExpiry (s : State) : Host.Outcome State Fault Refusal := .next (takeResponse s)

/-- RETRY_GAP_EXPIRY (R145). -/
def execRetryGapExpiry (s : State) : Host.Outcome State Fault Refusal := .next (takeGap s)

/-- CLAIM_WINDOW_EXPIRY (R147). -/
def execClaimWindowExpiry (s : State) : Host.Outcome State Fault Refusal := .next (takeClaim s)

end Sys2Proof.Machine
end

