-- ==== Sys2Proof/Machine/Dispatch.lean ====
section
/-! DEFINITION. The meaning of each command, one arm per constructor. -/

namespace Sys2Proof.Machine

open Sys2Proof

def exec (i : Instr) (s : State) : Host.Outcome State Fault Refusal :=
  match i with
  -- reset and lines
  | .fullReset hcsLow hostupHigh => Sys2Proof.Machine.execFullReset hcsLow hostupHigh s
  | .hostupLineChange high => Sys2Proof.Machine.execHostupLineChange high s
  | .hostupRiseTaken => Sys2Proof.Machine.execHostupRiseTaken s
  | .hostupFallTaken => Sys2Proof.Machine.execHostupFallTaken s
  -- host link
  | .hcsFall => Sys2Proof.Machine.execHcsFall s
  | .hcsRise clocked => Sys2Proof.Machine.execHcsRise clocked s
  -- host requests
  | .nop tag body => Sys2Proof.Machine.execNop tag body s
  | .handOver tag body => Sys2Proof.Machine.execHandOver tag body s
  | .takeBack tag body => Sys2Proof.Machine.execTakeBack tag body s
  | .identityPut tag body => Sys2Proof.Machine.execIdentityPut tag body s
  | .identityDrop tag body => Sys2Proof.Machine.execIdentityDrop tag body s
  | .identityList tag body => Sys2Proof.Machine.execIdentityList tag body s
  | .rulePut tag body => Sys2Proof.Machine.execRulePut tag body s
  | .ruleDrop tag body => Sys2Proof.Machine.execRuleDrop tag body s
  | .ruleList tag body => Sys2Proof.Machine.execRuleList tag body s
  | .templatePut tag body => Sys2Proof.Machine.execTemplatePut tag body s
  | .templateDrop tag body => Sys2Proof.Machine.execTemplateDrop tag body s
  | .templateList tag body => Sys2Proof.Machine.execTemplateList tag body s
  | .sessionPut tag body => Sys2Proof.Machine.execSessionPut tag body s
  | .sessionDrop tag body => Sys2Proof.Machine.execSessionDrop tag body s
  | .sessionGet tag body => Sys2Proof.Machine.execSessionGet tag body s
  | .policySet tag body => Sys2Proof.Machine.execPolicySet tag body s
  | .policyGet tag body => Sys2Proof.Machine.execPolicyGet tag body s
  | .wakeRecord tag body => Sys2Proof.Machine.execWakeRecord tag body s
  | .evidenceRead tag body => Sys2Proof.Machine.execEvidenceRead tag body s
  | .evidenceRelease tag body => Sys2Proof.Machine.execEvidenceRelease tag body s
  | .holdStatus tag body => Sys2Proof.Machine.execHoldStatus tag body s
  | .status tag body => Sys2Proof.Machine.execStatus tag body s
  | .statusClear tag => Sys2Proof.Machine.execStatusClear tag s
  | .clearAll tag body => Sys2Proof.Machine.execClearAll tag body s
  -- station records
  | .rxFrame frame => Sys2Proof.Machine.execRxFrame frame s
  | .txDone => Sys2Proof.Machine.execTxDone s
  | .txRefused => Sys2Proof.Machine.execTxRefused s
  | .deliverDone => Sys2Proof.Machine.execDeliverDone s
  | .linkUp => Sys2Proof.Machine.execLinkUp s
  | .linkDown => Sys2Proof.Machine.execLinkDown s
  | .portReset => Sys2Proof.Machine.execPortReset s
  | .stationRecordError bytes => Sys2Proof.Machine.execStationRecordError bytes s
  -- classifier
  | .frameTaken => Sys2Proof.Machine.execFrameTaken s
  | .lengthCheck => Sys2Proof.Machine.execLengthCheck s
  | .vlanCheck => Sys2Proof.Machine.execVlanCheck s
  | .destinationCheck => Sys2Proof.Machine.execDestinationCheck s
  | .sessionDispatch => Sys2Proof.Machine.execSessionDispatch s
  | .responderDispatch => Sys2Proof.Machine.execResponderDispatch s
  | .ruleMatch => Sys2Proof.Machine.execRuleMatch s
  | .defaultAction => Sys2Proof.Machine.execDefaultAction s
  -- timers
  | .periodExpiry cls => Sys2Proof.Machine.execPeriodExpiry cls s
  | .leaseMarginReached entry => Sys2Proof.Machine.execLeaseMarginReached entry s
  | .leaseDeadline entry => Sys2Proof.Machine.execLeaseDeadline entry s
  | .reportDeadline entry => Sys2Proof.Machine.execReportDeadline entry s
  | .dueExpiry session => Sys2Proof.Machine.execDueExpiry session s
  | .probeTimerExpiry session => Sys2Proof.Machine.execProbeTimerExpiry session s
  | .wakeResponseExpiry => Sys2Proof.Machine.execWakeResponseExpiry s
  | .retryGapExpiry => Sys2Proof.Machine.execRetryGapExpiry s
  | .claimWindowExpiry => Sys2Proof.Machine.execClaimWindowExpiry s

end Sys2Proof.Machine
end

