-- ==== Sys2Proof/Machine/OwnEvents.lean ====
section
/-! DEFINITION. The part's own events: which are ready now, and what it does while no command waits (assumptions 1 and 2). -/

namespace Sys2Proof.Machine

open Sys2Proof

/-- The event of a classification's next step (R51, R52). -/
def stepEvent (k : ClassStep) : Instr :=
  match k with
  | .length => .lengthCheck
  | .vlan => .vlanCheck
  | .destination => .destinationCheck
  | .session => .sessionDispatch
  | .responder => .responderDispatch
  | .rule => .ruleMatch
  | .default => .defaultAction

/-- The classifier's ready event. -/
def classifierEvents (s : State) : List Instr :=
  match s.classifier.current with
  | some c => [stepEvent c.step]
  | none => if s.port.rxBuffer.isEmpty then [] else [.frameTaken]

/-- The HOSTUP filter's ready event. -/
def hostupEvents (s : State) : List Instr :=
  if hostupReady s then (if s.wake.hostupLine then [.hostupRiseTaken] else [.hostupFallTaken]) else []

/-- The ready events of an identity entry. -/
def entryEvents (s : State) (i : Nat) (e : IdentityEntry) : List Instr :=
  (if marginReady e s then [.leaseMarginReached i] else []) ++ (if leaseReady e s then [.leaseDeadline i] else [])
    ++ (if (reportReady e s).isSome then [.reportDeadline i] else [])

/-- The ready events of a session record. -/
def sessionEvents (s : State) (i : Nat) (x : Session) : List Instr :=
  (if dueReady x s then [.dueExpiry i] else []) ++ (if probeReady x s then [.probeTimerExpiry i] else [])

/-- The wake unit's ready events. -/
def wakeEvents (s : State) : List Instr :=
  (if responseReady s then [.wakeResponseExpiry] else []) ++ (if gapReady s then [.retryGapExpiry] else [])
    ++ (if claimReady s then [.claimWindowExpiry] else [])

/-- The ready events of the period classes. -/
def periodEvents (s : State) : List Instr :=
  ([.p0, .p1, .p2, .p3].filter (fun c => periodReady c s)).map .periodExpiry

/-- Every own event that is ready (R52, R141, R179). -/
def ownEvents (s : State) : List Instr :=
  classifierEvents s ++ hostupEvents s ++ wakeEvents s ++ periodEvents s
    ++ ((occupied s.responder.entries).map (fun p => entryEvents s p.1 p.2)).flatten
    ++ ((occupied s.keeper.sessions).map (fun p => sessionEvents s p.1 p.2)).flatten

/-- One ms passes (R178). -/
def tick (s : State) : State := { s with time := s.time + 1 }

/-- The part while no command waits: a ready own event is put on the queue, one of several by a free value; with none
ready, 1 ms passes (assumptions 1 and 2). -/
def idle (s : State) : State :=
  match ownEvents s with
  | [] => tick s
  | [e] => { s with pending := [e] }
  | e :: es =>
    { s with
      pending := [(e :: es).getD (Config.eventChoice s.freeCount % (es.length + 1)) e]
      freeCount := s.freeCount + 1 }

end Sys2Proof.Machine
end

