-- ==== Sys2Proof/Safety.lean ====
section
/-! DEFINITION. What is said of the part as a whole: the invariants that every step keeps, and the words in which the statements speak of
requests and replies. -/

namespace Sys2Proof.Machine

open Sys2Proof

/-! Invariants. -/

/-- DIVERT and the return drain flag agree with the stand-in state (R2, R17, R21, R22). -/
def ControllerOk (s : State) : Prop :=
  s.controller.divert = (s.controller.standIn != .attended)
    ∧ s.controller.drain = (s.controller.standIn == .returning)

/-- ATTN is high exactly while a reply or a notice waits (R172). -/
def AttnOk (s : State) : Prop := s.host.attn = attnLevel s.host

/-- WAKEREQ and the three timers agree with the call phase (R142 to R148). -/
def PhaseOk (w : WakeUnit) : Prop :=
  w.wakereq = (w.phase == .asserting) ∧ w.response.isSome = (w.phase == .asserting)
    ∧ w.gap.isSome = (w.phase == .gap) ∧ w.claim.isSome = (w.phase == .claim)

/-- The call phase agrees with the stand-in state and the filtered HOSTUP level (R143 to R148). -/
def CallingOk (st : StandIn) (w : WakeUnit) : Prop :=
  match w.phase with
  | .none => st ≠ .calling
  | .asserting | .gap => st = .calling ∧ w.hostupFiltered = false
  | .claim => (st = .standing ∨ st = .calling) ∧ w.hostupFiltered = true

/-- The outputs of the part stand as its state says. -/
def PinsOk (s : State) : Prop :=
  ControllerOk s ∧ AttnOk s ∧ PhaseOk s.wake ∧ CallingOk s.controller.standIn s.wake

/-- The hold queue's bounds, its level flag and its deliveries (R118, R119, R122, R125, R4). -/
def HoldOk (s : State) : Prop :=
  s.hold.queue.length ≤ 64 ∧ bytesOf s.hold.queue ≤ 32768
    ∧ inFlightCount s.hold.queue + s.hold.forgotten ≤ 4
    ∧ s.hold.level = levelOf s.wake.policy.highMark s.hold.queue
    ∧ 25 ≤ s.wake.policy.highMark
    ∧ (s.controller.standIn ≠ .returning → inFlightCount s.hold.queue = 0)
    ∧ (s.controller.standIn = .attended → s.hold.queue = [])

/-- The list items in the transmit queue belong to lists built so far (R153; the builds' numbers: assumption 15). -/
def BuildsOk (s : State) : Prop :=
  ∀ x ∈ s.port.txQueue, ∀ build entry, x.owner = .listItem build entry → build ≤ s.responder.build

/-- The bounds of the port, the notice queue, the wake unit's counts and the counters (R135, R138, R149, R162, R171,
R180). -/
def QueuesOk (s : State) : Prop :=
  s.port.rxBuffer.length ≤ 6 ∧ s.port.txQueue.length ≤ 8 ∧ s.host.notices.length ≤ 16 ∧ s.host.lost ≤ 65535
    ∧ s.wake.record.attempts ≤ 8 ∧ s.wake.uncaptured ≤ 65535 ∧ (∀ c, s.counters.get c ≤ max32)
    ∧ BuildsOk s

/-- The bounds of the tables and of every rule's hit count (R28, R62, R73, R78, R92). -/
def TablesOk (s : State) : Prop :=
  s.responder.entries.length = 24 ∧ s.keeper.sessions.length = 12 ∧ s.builder.templates.length = 8
    ∧ s.classifier.rules.length ≤ 32 ∧ (∀ r ∈ s.classifier.rules, r.hits ≤ r.limit)

/-- The wake record and the evidence slots (R134, R138). -/
def WakeOk (w : WakeUnit) : Prop :=
  w.lock = w.slotB.isSome ∧ (w.slotB.isSome = true → w.slotA.isSome = true)
    ∧ w.record.primary = w.record.enabled.primary
    ∧ w.record.firstTime.isSome = w.record.primary.isSome
    ∧ w.record.enabled &&& ~~~w.record.noted = 0

/-- A session record's timers and probe phase agree with its state (R97, R99, R106, R109). -/
def SessionOk (x : Session) : Prop :=
  (x.nextDue.isSome = true → x.state = .ready)
    ∧ (x.deadline.isSome = true → x.state = .probing ∧ x.phase = .timing)
    ∧ (x.phase ≠ .none → x.state = .probing ∨ x.state = .returned)

/-- Every session record is in order. -/
def SessionsOk (s : State) : Prop := ∀ x, some x ∈ s.keeper.sessions → SessionOk x

/-! Accounting. -/

/-- The frames settled since the counters were zeroed, and one more for a frame in classification (R181). -/
def accounted (s : State) : Nat :=
  s.counters.discarded + s.counters.answered + s.counters.absorbed + s.counters.held
    + (if s.classifier.current.isSome then 1 else 0)

/-- The records that have left the hold queue, and those it holds (R182). -/
def holdsOut (s : State) : Nat :=
  s.counters.delivered + s.counters.displaced + s.counters.cutDiscarded + s.hold.queue.length

/-- No counter is within 64 of its end, where it stops (R180), and the hold queue is within its bound (R118). -/
def farFromEnd (s : State) : Prop := (∀ c, s.counters.get c + 64 ≤ max32) ∧ s.hold.queue.length ≤ 64

/-! The words of the statements. -/

/-- The port can take a request: no reply waits, none is in flight, and the frame out is not WAIT (R165). -/
def PortFree (s : State) : Prop := portBusy s = false

/-- The device after a request taken and answered with a body, nothing else changed (R168, R172). -/
def answered (s : State) (tag : Byte) (body : List Byte) : State :=
  { s with host := { s.host with previous := .taken, reply := some { tag := tag, body := body }, attn := true } }

/-- The device after a request refused with a status (R169). -/
def refused (s : State) (tag : Byte) (status : Status) : State := answered s tag [status.code]

/-- The commands that are host requests. -/
def isRequest (c : Instr) : Bool :=
  match c with
  | .nop _ _ | .handOver _ _ | .takeBack _ _ | .identityPut _ _ | .identityDrop _ _ | .identityList _ _
  | .rulePut _ _ | .ruleDrop _ _ | .ruleList _ _ | .templatePut _ _ | .templateDrop _ _ | .templateList _ _
  | .sessionPut _ _ | .sessionDrop _ _ | .sessionGet _ _ | .policySet _ _ | .policyGet _ _ | .wakeRecord _ _
  | .evidenceRead _ _ | .evidenceRelease _ _ | .holdStatus _ _ | .status _ _ | .statusClear _
  | .clearAll _ _ => true
  | _ => false

/-- The edit requests of R5. -/
def isEdit (c : Instr) : Bool :=
  match c with
  | .identityPut _ _ | .identityDrop _ _ | .rulePut _ _ | .ruleDrop _ _ | .templatePut _ _ | .templateDrop _ _
  | .sessionPut _ _ | .sessionDrop _ _ | .policySet _ _ | .clearAll _ _ => true
  | _ => false

/-- The length check of an edit request (R29, R30, R65, R66, R81, R83, R93, R94, R175, R177); a request that edits nothing
has none. -/
def editLengthOk (k : RequestKind) (body : List Byte) : Bool :=
  match k with
  | .identityPut => identityPutLengthOk body
  | .rulePut => rulePutLengthOk body
  | .templatePut => templatePutLengthOk body
  | .sessionPut => sessionPutLengthOk body
  | .identityDrop | .ruleDrop | .templateDrop | .sessionDrop => body.length == 1
  | .policySet => body.length == 12
  | .clearAll => body.length == 0
  | _ => true

/-- The command of a request kind with its tag and body. -/
def requestCommand (k : RequestKind) (tag : Byte) (body : List Byte) : Instr :=
  match k with
  | .nop => .nop tag body
  | .handOver => .handOver tag body
  | .takeBack => .takeBack tag body
  | .identityPut => .identityPut tag body
  | .identityDrop => .identityDrop tag body
  | .identityList => .identityList tag body
  | .rulePut => .rulePut tag body
  | .ruleDrop => .ruleDrop tag body
  | .ruleList => .ruleList tag body
  | .templatePut => .templatePut tag body
  | .templateDrop => .templateDrop tag body
  | .templateList => .templateList tag body
  | .sessionPut => .sessionPut tag body
  | .sessionGet => .sessionGet tag body
  | .sessionDrop => .sessionDrop tag body
  | .policySet => .policySet tag body
  | .policyGet => .policyGet tag body
  | .wakeRecord => .wakeRecord tag body
  | .evidenceRead => .evidenceRead tag body
  | .evidenceRelease => .evidenceRelease tag body
  | .holdStatus => .holdStatus tag body
  | .status => .status tag body
  | .clearAll => .clearAll tag body

/-- The frame in classification, its step and its mark are the same; what it reads of edited items may differ. -/
def sameFrame (s t : State) : Prop :=
  t.classifier.current.map (fun c => (c.frame, c.step, c.reached4))
    = s.classifier.current.map (fun c => (c.frame, c.step, c.reached4))

/-- Two states that differ at most in the host port and in what the classification in progress still reads. -/
def sameTables (s t : State) : Prop :=
  t.time = s.time ∧ t.controller = s.controller ∧ t.responder = s.responder ∧ t.builder = s.builder
    ∧ t.keeper = s.keeper ∧ t.hold = s.hold ∧ t.wake = s.wake ∧ t.port = s.port ∧ t.counters = s.counters
    ∧ t.classifier.rules = s.classifier.rules ∧ t.classifier.periods = s.classifier.periods ∧ sameFrame s t
    ∧ t.freeCount = s.freeCount ∧ t.pending = s.pending

/-- No edit has met the classification in progress. -/
def nothingSuperseded (s : State) : Prop := superseded s = noneSuperseded

/-- The host port after a state change to a state, for a reason: the STATE_CHANGED notice of R3, queued or lost as R171
states. -/
def afterChange (s : State) (new : StandIn) (reason : Reason) : HostPort :=
  (queueNotice (.stateChanged s.host.lost s.time s.controller.standIn new reason) s).host

/-- The host port after the state changes of one event, in their order: a STATE_CHANGED notice for each (R3). -/
def afterChanges : List (StandIn × Reason) → State → HostPort
  | [], s => s.host
  | (new, reason) :: rest, s =>
    afterChanges rest
      { s with host := afterChange s new reason, controller := { s.controller with standIn := new } }

/-- The state changes at the entry to RETURNING for a reason: the change to RETURNING, and the change to ATTENDED with it
where nothing is left to deliver (R17, R21). -/
def returnChanges (reason : Reason) (s : State) : List (StandIn × Reason) :=
  if s.hold.queue = [] ∧ s.port.rxBuffer = [] ∧ s.classifier.current = none then
    [(.returning, reason), (.attended, .drained)]
  else [(.returning, reason)]

/-- The responder at the entry to RETURNING: the announcement list, the pending defences and the reports due and waiting
are abandoned (R17, R45, R50). -/
def abandoned (r : Responder) : Responder :=
  { r with list := [], entries := r.entries.map (Option.map (fun e => { e with defence := false, report := none })) }

/-- The sessions at the entry to RETURNING: each is RETURNED, with the state it held as its state at return (R109). -/
def allReturned (sessions : List (Option Session)) : List (Option Session) :=
  sessions.map (Option.map (fun x =>
    { x with state := .returned, atReturn := some x.state, nextDue := none, deadline := none }))

/-- The sessions when an entry leaves ACTIVE in a stand-in: each live session of the entry is LOST, and no other session
changes (R32, R106). -/
def lostWith (i : Nat) (sessions : List (Option Session)) : List (Option Session) :=
  sessions.map (Option.map (fun x =>
    if x.localIndex = i ∧ x.state.live = true then
      { x with state := .lost, nextDue := none, deadline := none, phase := .none }
    else x))

/-- The items of the announcement list numbered build among transmit slots, by their entries' indexes in queue order (R46,
R153). -/
def listItemsOf (build : Nat) (slots : List TxSlot) : List Nat :=
  slots.filterMap (fun x =>
    match x.owner with
    | .listItem b i => if b = build then some i else none
    | _ => none)

/-- What becomes of ARMING at an event from s to t that takes an item off the announcement list (R8, R10, R11, R40): with
nothing left unsettled arming ends with the reply of the HAND OVER in flight, otherwise it goes on. -/
def ArmingAfterRemoval (s t : State) : Prop :=
  s.controller.standIn = .arming →
    (unsettled t ≠ 0 → t.controller.standIn = .arming ∧ t.host = s.host)
      ∧ (unsettled t = 0 → ∀ tag, s.host.inFlight = some tag →
          t.controller.standIn = (if t.wake.record.enabled = 0 then .standing else .calling)
            ∧ t.host.inFlight = none
            ∧ t.host.reply =
                some
                  { tag := tag,
                    body :=
                      [0, 0, byte s.responder.settledDone, byte s.responder.settledRefused] ++ be32 s.time.toNat })

/-- The host port after a link change: the LINK_CHANGED notice of R160. -/
def afterLink (s : State) (up : Bool) (record : LinkRecord) : HostPort :=
  (queueNotice (.linkChanged s.host.lost s.time up record) s).host

/-- The device with the frame in classification settled under a disposition and nothing else changed (R75). -/
def settled (d : Disposition) (u : State) : State :=
  { u with classifier := { u.classifier with current := none }, counters := u.counters.add (.settled d) 1 }

/-- An answer or an ACK offered (R12, R153): in a stand-in it takes a free slot and is sent; with eight slots taken, and in
RETURNING and ATTENDED, it is dropped and counted under its kind. -/
def offered (kind : TxKind) (frame : List Byte) (u : State) : State :=
  if u.controller.standIn.serving = true ∧ u.port.txQueue.length < 8 then
    { u with
      port :=
        { u.port with
          txQueue := u.port.txQueue ++ [{ kind := kind, owner := .untold, frame := frame }],
          sent := u.port.sent ++ [.txFrame frame] } }
  else { u with counters := u.counters.add (.dropped kind) 1 }

/-- The hold buffer with m of its oldest unkept records displaced and a frame's record at the tail (R114, R117, R119). -/
def holding (u : State) (frame : List Byte) (source : HoldSource) (kept : Bool) (m : Nat) : HoldBuffer :=
  let q :=
    dropUnkept m u.hold.queue
      ++ [{ arrival := u.time, source := source, kept := kept, vlan := heldVlan frame, bytes := frame,
            delivery := .waiting }]
  { u.hold with queue := q, level := levelOf u.wake.policy.highMark q }

/-- In a stand-in a frame of a length is held with m records displaced: none where it fits (R116), under DROP_OLDEST
otherwise the smallest number of oldest unkept records that makes room (R117). -/
def HoldAccepted (u : State) (len m : Nat) : Prop :=
  (m = 0 ∧ fits u.hold.queue len = true)
    ∨ (u.wake.policy.overflow = .dropOldest ∧ fits u.hold.queue len = false ∧ m ≤ unkeptCount u.hold.queue
        ∧ fits (dropUnkept m u.hold.queue) len = true ∧ ∀ k, k < m → fits (dropUnkept k u.hold.queue) len = false)

/-- In a stand-in a hold of a frame of a length is refused: it does not fit, and DROP_OLDEST is not in force or finds no
room among the unkept records (R116, R117). -/
def HoldRefused (u : State) (len : Nat) : Prop :=
  fits u.hold.queue len = false
    ∧ (u.wake.policy.overflow = .dropNewest
        ∨ ∀ m, m ≤ unkeptCount u.hold.queue → fits (dropUnkept m u.hold.queue) len = false)

/-- The report of HOLD_HIGH (R120). -/
def highReport : Report := { cause := .holdHigh, origin := none, frame := none }

/-- The reports of a list that holds at most one. -/
def reported (own : Option Report) (u : State) : State :=
  match own with
  | none => u
  | some r => reportCause r u

/-- A frame settled by a hold in a stand-in (R75, R115, R120, R132), where u says what else its step changes, by whether
the hold is accepted, and own is the requester's report. Accepted, the frame is HELD, and HOLD_HIGH is reported where the
level rises to ABOVE, before or after the requester's report. Refused, it is DISCARDED and counted. -/
def SettledByHold (frame : List Byte) (source : HoldSource) (kept : Bool) (own : Option Report) (u : Bool → State)
    (t : State) : Prop :=
  (∀ m, HoldAccepted (u true) frame.length m →
      let v :=
        settled .held
          { u true with
            hold := holding (u true) frame source kept m, counters := (u true).counters.add .displaced m }
      (((u true).hold.level = .above ∨ v.hold.level = .below) → t = reported own v)
        ∧ ((u true).hold.level = .below → v.hold.level = .above →
            (own = none → t = reportCause highReport v)
              ∧ ∀ r, own = some r → ∃ n,
                  t = reportCause r (reportCause highReport { v with freeCount := n })
                    ∨ t = reportCause highReport (reportCause r { v with freeCount := n })))
    ∧ (HoldRefused (u false) frame.length →
        t = reported own (settled .discarded { u false with counters := (u false).counters.add .holdRefused 1 }))

/-- A frame settled by a hold of a classification carried over (R19, R77, R111, R115): in RETURNING it joins the tail under
DROP_NEWEST and the sending step follows; it is refused where it does not fit, and in ATTENDED. -/
def CarriedHold (frame : List Byte) (source : HoldSource) (kept : Bool) (u : Bool → State) (t : State) : Prop :=
  ((u true).controller.standIn = .returning → fits (u true).hold.queue frame.length = true →
      t =
        settled .held
          (sendingStep
            { u true with
              hold := holding (u true) frame source kept 0, counters := (u true).counters.add .displaced 0 }))
    ∧ (((u false).controller.standIn = .attended
          ∨ ((u false).controller.standIn = .returning ∧ fits (u false).hold.queue frame.length = false)) →
        t = checkDrained (settled .discarded { u false with counters := (u false).counters.add .holdRefused 1 }))

/-- A frame settled by a hold that its step asks for: in a stand-in with the requester's report, carried over past the
entry to RETURNING without any. -/
def HoldSettles (frame : List Byte) (source : HoldSource) (kept : Bool) (own : Option Report) (u : Bool → State)
    (t : State) : Prop :=
  ((u true).controller.standIn.serving = true → SettledByHold frame source kept own u t)
    ∧ CarriedHold frame source kept u t

end Sys2Proof.Machine
end

