-- ==== Sys2Proof/WellFormed.lean ====
section
/-! DEFINITION. Which commands can reach the part: bodies within the frame's limit, indexes within the tables, records as their kind
asks. exec gives every command an outcome; a command that is not well-formed is one no sender can send. -/

namespace Sys2Proof

/-- A host request body is 0 to 1600 bytes (section 11.1). -/
def bodyOk (body : List Byte) : Bool := decide (body.length ≤ 1600)

/-- The commands that the part's surroundings and its own timers can make. -/
def Instr.wellFormed : Instr → Bool
  | .fullReset _ _ | .hostupLineChange _ | .hostupRiseTaken | .hostupFallTaken | .hcsFall | .hcsRise _ => true
  | .nop _ body | .handOver _ body | .takeBack _ body => bodyOk body
  | .identityPut _ body | .identityDrop _ body | .identityList _ body => bodyOk body
  | .rulePut _ body | .ruleDrop _ body | .ruleList _ body => bodyOk body
  | .templatePut _ body | .templateDrop _ body | .templateList _ body => bodyOk body
  | .sessionPut _ body | .sessionDrop _ body | .sessionGet _ body => bodyOk body
  | .policySet _ body | .policyGet _ body | .wakeRecord _ body => bodyOk body
  | .evidenceRead _ body | .evidenceRelease _ body | .holdStatus _ body | .clearAll _ body => bodyOk body
  | .status _ body => bodyOk body && body != [1]
  | .statusClear _ => true
  | .rxFrame frame => decide (1 ≤ frame.length) && decide (frame.length ≤ 1600)
  | .txDone | .txRefused | .deliverDone | .linkUp | .linkDown | .portReset => true
  | .stationRecordError bytes => (decodeRecord bytes).isNone
  | .frameTaken | .lengthCheck | .vlanCheck | .destinationCheck => true
  | .sessionDispatch | .responderDispatch | .ruleMatch | .defaultAction => true
  | .periodExpiry _ => true
  | .leaseMarginReached i | .leaseDeadline i | .reportDeadline i => decide (i < 24)
  | .dueExpiry i | .probeTimerExpiry i => decide (i < 12)
  | .wakeResponseExpiry | .retryGapExpiry | .claimWindowExpiry => true

end Sys2Proof
end

