-- ==== Sys2Proof/Certificates/Slice0/Obligations.lean ====
section
/-! DEFINITION. The statements for the provers. -/

section

open Sys2Proof Sys2Proof.Machine

/-! The queue and time. -/

/-- A step takes the command at the front of the queue: it is exec of that command on the state with the queue's rest
(R52, R170; assumption 20). -/
def Obligations.StepRunsFrontCommand : Prop :=
  ∀ (c : Instr) (rest : List Instr) (s : State),
    step { s with pending := c :: rest } = exec c { s with pending := rest }

/-- The model's choice on an empty queue and of its own events (assumptions 1 and 2): with no own event ready, 1 ms passes;
otherwise one of the ready own events is put on the queue and nothing else changes but the count of free values; an own
event named while it is not ready changes nothing. -/
def Obligations.OwnEventsAndTime : Prop :=
  (∀ s : State, s.pending = [] →
      (ownEvents s = [] → step s = .next { s with time := s.time + 1 })
        ∧ (ownEvents s ≠ [] →
            ∃ e ∈ ownEvents s, ∃ n, step s = .next { s with pending := [e], freeCount := n }))
    ∧ (∀ (s : State) (c : Instr),
        c ∉ ownEvents s →
        (c = .hostupRiseTaken ∨ c = .hostupFallTaken ∨ c = .frameTaken ∨ c = .wakeResponseExpiry ∨ c = .retryGapExpiry
          ∨ c = .claimWindowExpiry ∨ (∃ cls, c = .periodExpiry cls)
          ∨ c = .lengthCheck ∨ c = .vlanCheck ∨ c = .destinationCheck ∨ c = .sessionDispatch ∨ c = .responderDispatch
          ∨ c = .ruleMatch ∨ c = .defaultAction
          ∨ (∃ i, c = .leaseMarginReached i ∨ c = .leaseDeadline i ∨ c = .reportDeadline i ∨ c = .dueExpiry i
              ∨ c = .probeTimerExpiry i)) →
        exec c s = .next s)

/-- Every command answers a next state in every state; it leaves the queue as it is, and the time base too unless it is a
full reset, which sets it to 0 (R178). -/
def Obligations.EveryCommandAnswersNext : Prop :=
  ∀ (c : Instr) (s : State), ∃ t, exec c s = .next t ∧ t.pending = s.pending
    ∧ (t.time = s.time ∨ ∃ a b, c = .fullReset a b ∧ t.time = 0)

/-- FULL_RESET in any state answers the contents after reset that the manual gives (R1, R28, R62, R72, R78, R92, R113,
R128, R149, R162, R174, R178, R180), with HCS and HOSTUP at the levels its operands give: a transaction in progress is
answered with a WAIT frame of tag 0 (R167), and a high HOSTUP line is measured from the reset's end (R141). The queue
and the model's count of free values stand. The operands and the two lines' levels in State.reset are the model's
(assumption 7). -/
def Obligations.FullResetLeavesResetContents : Prop :=
  (∀ (hcsLow hostupHigh : Bool) (s : State),
        exec (.fullReset hcsLow hostupHigh) s =
          .next
            { State.reset with
              wake :=
                { State.reset.wake with
                  hostupLine := hostupHigh, hostupSince := if hostupHigh then some 0 else none }
              host :=
                { State.reset.host with
                  hcsLow := hcsLow, unseen := hcsLow,
                  frameOut := if hcsLow then some { kind := .wait, tag := 0, outcome := .none, body := [] } else none }
              freeCount := s.freeCount, pending := s.pending })
    ∧ (State.reset.time = 0
      ∧ State.reset.controller = { standIn := .attended, depth := none, divert := false, drain := false }
      ∧ State.reset.responder.entries = List.replicate 24 none ∧ State.reset.responder.list = []
      ∧ State.reset.classifier = { rules := [], periods := { p0 := 0, p1 := 0, p2 := 0, p3 := 0 }, current := none }
      ∧ State.reset.builder.templates = List.replicate 8 none ∧ State.reset.keeper.sessions = List.replicate 12 none
      ∧ State.reset.hold = { queue := [], level := .below, forgotten := 0 }
      ∧ State.reset.wake.record =
          { depth := none, firstTime := none, primary := none, enabled := 0, noted := 0, attempts := 0, outcome := .none }
      ∧ State.reset.wake.slotA = none ∧ State.reset.wake.slotB = none ∧ State.reset.wake.lock = false
      ∧ State.reset.wake.uncaptured = 0 ∧ State.reset.wake.phase = .none ∧ State.reset.wake.response = none
      ∧ State.reset.wake.gap = none ∧ State.reset.wake.claim = none ∧ State.reset.wake.wakereq = false
      ∧ State.reset.wake.hostupFiltered = false
      ∧ State.reset.wake.policy =
          { light := 0x7D, deep := 0x19, defaultAction := .discard, overflow := .dropOldest, highMark := 75,
            wakeResponse := 10, retries := 3, claimWindow := 20, leaseMargin := 300, answerLimit := 20 }
      ∧ State.reset.port = { rxBuffer := [], txQueue := [], linkUp := false, turn := .responder, sent := [.ready 6] }
      ∧ State.reset.host.assembly = [] ∧ State.reset.host.frameOut = none ∧ State.reset.host.reply = none
      ∧ State.reset.host.inFlight = none ∧ State.reset.host.previous = .none ∧ State.reset.host.lost = 0
      ∧ State.reset.host.notices = [.stateChanged 0 0 .attended .attended .powerUp] ∧ State.reset.host.attn = true
      ∧ (∀ c, State.reset.counters.get c = 0))

/-! Invariants. -/

/-- Every step keeps the outputs in agreement with the state: DIVERT is high exactly outside ATTENDED and the drain flag
set exactly in RETURNING (R2, R17, R21, R22); ATTN is high exactly while a reply or a notice waits (R172); WAKEREQ is
asserted exactly in phase ASSERTING, each timer runs exactly in its phase, and the phase suits the stand-in state and
the filtered HOSTUP level (R142 to R148). -/
def Obligations.StepKeepsOutputs : Prop := ∀ s t : State, PinsOk s → step s = .next t → PinsOk t

/-- Every step keeps the hold queue within 64 records and 32768 bytes, with at most 4 deliveries unanswered, the level
flag as the high mark gives it, no record IN_FLIGHT outside RETURNING and no record in ATTENDED (R118, R119, R122,
R125, R4). -/
def Obligations.StepKeepsHoldQueue : Prop := ∀ s t : State, HoldOk s → step s = .next t → HoldOk t

/-- Every step keeps the receive buffer within 6 frames, the transmit queue within 8 slots, the notice queue within 16
notices, and the lost count, the attempts, the uncaptured count and every device counter within their ends (R149,
R162, R171, R138, R135, R180); the list items in the transmit queue belong to lists built so far (assumption 15). -/
def Obligations.StepKeepsQueues : Prop := ∀ s t : State, QueuesOk s → step s = .next t → QueuesOk t

/-- Every step keeps 24 identity indexes, 12 session indexes, 8 template indexes and at most 32 rules, each with a hit
count within its budget limit (R28, R92, R78, R62, R73). -/
def Obligations.StepKeepsTables : Prop := ∀ s t : State, TablesOk s → step s = .next t → TablesOk t

/-- Every step keeps the wake record and the evidence in order: the lock is set exactly while slot B is filled, B is
never filled while A is empty, the primary cause is the cause of highest priority in the enabled set, the first
enabled cause time is present exactly with it, and the enabled set is part of the noted set (R134, R130, R138). -/
def Obligations.StepKeepsWakeRecord : Prop := ∀ s t : State, WakeOk s.wake → step s = .next t → WakeOk t.wake

/-- Every step keeps each session record's timers in agreement with its state: a next due time only in READY, a probe
deadline only in PROBING and TIMING, a probe phase other than NONE only in PROBING or RETURNED (R97, R99, R106,
R109). -/
def Obligations.StepKeepsSessions : Prop := ∀ s t : State, SessionsOk s → step s = .next t → SessionsOk t

/-- The state after reset has every invariant. -/
def Obligations.InvariantsHoldAtReset : Prop :=
  PinsOk State.reset ∧ HoldOk State.reset ∧ QueuesOk State.reset ∧ TablesOk State.reset ∧ WakeOk State.reset.wake
    ∧ SessionsOk State.reset

/-- Frames are accounted for (R181): over any step that does not zero the counters, with every counter away from its end
and the hold queue within its bound, the dispositions counted, and one more for a frame in classification, move by as
much as the frames taken. -/
def Obligations.StepAccountsForFrames : Prop :=
  ∀ s t : State, farFromEnd s → step s = .next t →
    t.counters = zeroCounters
      ∨ accounted t + s.counters.framesTaken = accounted s + t.counters.framesTaken

/-- Holds are accounted for (R182): over any step that does not zero the counters, with every counter away from its end
and the hold queue within its bound, the records in the queue and those delivered, displaced and cut move by as much as
the HELD count. -/
def Obligations.StepAccountsForHolds : Prop :=
  ∀ s t : State, farFromEnd s → step s = .next t →
    t.counters = zeroCounters ∨ holdsOut t + s.counters.held = holdsOut s + t.counters.held

/-! Shared operations. -/

/-- A notice joins the queue with room for it, the lost count becomes 0 and ATTN is high; with 16 waiting it is
discarded and counted, to 65535 at most (R171, R172). The notices of a state change and of a link change carry the lost
count as it stood. -/
def Obligations.NoticeQueuedOrLost : Prop :=
  ∀ (n : Notice) (s : State),
    (s.host.notices.length < 16 →
        queueNotice n s = { s with host := { s.host with notices := s.host.notices ++ [n], lost := 0, attn := true } })
      ∧ (16 ≤ s.host.notices.length → s.host.lost ≤ 65535 →
          queueNotice n s =
            { s with host := { s.host with lost := if s.host.lost < 65535 then s.host.lost + 1 else 65535 } })
      ∧ (∀ new reason, stateNotice s new reason = .stateChanged s.host.lost s.time s.controller.standIn new reason)
      ∧ (∀ up record, linkNotice s up record = .linkChanged s.host.lost s.time up record)

/-- The return ends at the moment at which the hold queue is empty, nothing is in flight, no frame waits and none is in
classification: the drain flag clears, DIVERT falls, the state is ATTENDED and one STATE_CHANGED notice tells it (R21);
otherwise nothing happens. -/
def Obligations.ReturnEndsWhenDrained : Prop :=
  ∀ s : State,
    (s.controller.standIn = .returning → s.hold.queue = [] → s.port.rxBuffer = [] → s.classifier.current = none →
        checkDrained s =
          { s with
            controller := { s.controller with standIn := .attended, divert := false, drain := false }
            host := afterChange s .attended .drained })
      ∧ ((s.controller.standIn ≠ .returning ∨ s.hold.queue ≠ [] ∨ s.port.rxBuffer ≠ []
            ∨ s.classifier.current ≠ none) → checkDrained s = s)

/-- A cause report outside ARMING, STANDING and CALLING changes nothing. In them it is recorded: the cause joins the noted
set, and the enabled set exactly where the wake matrix enables it at the depth; the first enabled cause time and the
primary cause follow the enabled set; with the lock set the cause is counted as uncaptured; an enabled one with the lock
clear fills the first free slot; depth, outcome, policy and the HOSTUP filter stand (R129, R130, R134, R135). In ARMING
and CALLING, and where the cause is not enabled, nothing else changes. An enabled one in STANDING enters CALLING for
CALLED: attempts 0, then attempt 1 with WAKEREQ asserted at a low HOSTUP, or phase CLAIM at a high one with the claim
window started or running on (R13, R131, R143). -/
def Obligations.CauseReportRecorded : Prop :=
  ∀ (r : Report) (s : State),
    (s.controller.standIn.serving = false → reportCause r s = s)
      ∧ (s.controller.standIn.serving = true →
          ∃ w : WakeUnit,
            (∃ rec, w =
                { s.wake with
                  record := rec, slotA := w.slotA, slotB := w.slotB, lock := w.lock, uncaptured := w.uncaptured }
              ∧ rec =
                  { s.wake.record with
                    noted := s.wake.record.noted.join r.cause, enabled := rec.enabled, firstTime := rec.firstTime,
                    primary := rec.primary })
            ∧ (causeEnabled s.wake r.cause = false →
                w.record.enabled = s.wake.record.enabled ∧ w.record.firstTime = s.wake.record.firstTime
                  ∧ w.record.primary = s.wake.record.primary)
            ∧ (causeEnabled s.wake r.cause = true →
                w.record.enabled = s.wake.record.enabled.join r.cause
                  ∧ (∀ t, s.wake.record.firstTime = some t → w.record.firstTime = some t)
                  ∧ (s.wake.record.firstTime = none → w.record.firstTime = some s.time)
                  ∧ ∃ p, w.record.primary = some p ∧ w.record.enabled.has p = true
                    ∧ ∀ c, w.record.enabled.has c = true → p.priority ≤ c.priority)
            ∧ w.uncaptured = (if s.wake.lock then min 65535 (s.wake.uncaptured + 1) else s.wake.uncaptured)
            ∧ ((s.wake.lock = true ∨ causeEnabled s.wake r.cause = false) →
                w.slotA = s.wake.slotA ∧ w.slotB = s.wake.slotB ∧ w.lock = s.wake.lock)
            ∧ (causeEnabled s.wake r.cause = true → s.wake.lock = false → s.wake.slotA = none →
                w.slotA = some (evidenceOf r s.time) ∧ w.slotB = s.wake.slotB ∧ w.lock = false)
            ∧ (causeEnabled s.wake r.cause = true → s.wake.lock = false → s.wake.slotA ≠ none → s.wake.slotB = none →
                w.slotA = s.wake.slotA ∧ w.slotB = some (evidenceOf r s.time) ∧ w.lock = true)
            ∧ ((causeEnabled s.wake r.cause = false ∨ s.controller.standIn ≠ .standing) →
                reportCause r s = { s with wake := w })
            ∧ (causeEnabled s.wake r.cause = true → s.controller.standIn = .standing →
                reportCause r s =
                  { s with
                    controller := { s.controller with standIn := .calling, divert := true }
                    host := afterChange s .calling .called
                    wake :=
                      if s.wake.hostupFiltered = false then
                        { w with
                          record := { w.record with attempts := 1 }, wakereq := true,
                          response := some { start := s.time, length := s.wake.policy.wakeResponse * 1000 },
                          gap := none, claim := none, phase := .asserting }
                      else if s.wake.claim.isSome then
                        { w with record := { w.record with attempts := 0 }, phase := .claim }
                      else
                        { w with
                          record := { w.record with attempts := 0 }, wakereq := false, response := none, gap := none,
                          claim := some { start := s.time, length := s.wake.policy.claimWindow * 1000 },
                          phase := .claim } }))

/-! Lines. -/

/-- HOSTUP_LINE_CHANGE (R141): a change of the line starts the measure afresh, or ends it where the line is back at the
filtered level; a level the line already has changes nothing. -/
def Obligations.HostupLineChange : Prop :=
  ∀ (high : Bool) (s : State),
    (high ≠ s.wake.hostupLine →
        exec (.hostupLineChange high) s =
          .next
            { s with
              wake :=
                { s.wake with
                  hostupLine := high
                  hostupSince := if high = s.wake.hostupFiltered then none else some s.time } })
      ∧ (high = s.wake.hostupLine → exec (.hostupLineChange high) s = .next s)

/-- HOSTUP_RISE_TAKEN, where the line has held high for 20 ms: the filtered level rises (R141). In ATTENDED, ARMING and
RETURNING nothing else happens. In STANDING, and in CALLING with phase ASSERTING or GAP, WAKEREQ falls, the other
timers stop and the claim window starts (section 1.8, R144, R145, R147). -/
def Obligations.HostupRiseTaken : Prop :=
  ∀ (s : State) (t0 : Time),
    s.wake.hostupLine = true → s.wake.hostupFiltered = false → s.wake.hostupSince = some t0 →
    20 ≤ elapsed s.time t0 →
    ((s.controller.standIn = .attended ∨ s.controller.standIn = .arming ∨ s.controller.standIn = .returning) →
        exec .hostupRiseTaken s =
          .next { s with wake := { s.wake with hostupFiltered := true, hostupSince := none } })
      ∧ ((s.controller.standIn = .standing
            ∨ (s.controller.standIn = .calling ∧ (s.wake.phase = .asserting ∨ s.wake.phase = .gap))) →
          exec .hostupRiseTaken s =
            .next
              { s with
                wake :=
                  { s.wake with
                    hostupFiltered := true, hostupSince := none, wakereq := false, response := none, gap := none,
                    claim := some { start := s.time, length := s.wake.policy.claimWindow * 1000 }, phase := .claim } })

/-- HOSTUP_FALL_TAKEN, where the line has held low for 20 ms: the filtered level falls (R141). In ATTENDED and ARMING, and
in STANDING without a claim window, nothing else happens; in STANDING the claim window stops; in CALLING with phase
CLAIM a new attempt begins (R146); in RETURNING the return is cut short (R22, R125). -/
def Obligations.HostupFallTaken : Prop :=
  ∀ (s : State) (t0 : Time),
    s.wake.hostupLine = false → s.wake.hostupFiltered = true → s.wake.hostupSince = some t0 →
    20 ≤ elapsed s.time t0 →
    ((s.controller.standIn = .attended ∨ s.controller.standIn = .arming
          ∨ (s.controller.standIn = .standing ∧ s.wake.phase = .none)) →
        exec .hostupFallTaken s =
          .next { s with wake := { s.wake with hostupFiltered := false, hostupSince := none } })
      ∧ (s.controller.standIn = .standing → s.wake.phase = .claim →
          exec .hostupFallTaken s =
            .next
              { s with
                wake :=
                  { s.wake with hostupFiltered := false, hostupSince := none, claim := none, phase := .none } })
      ∧ (s.controller.standIn = .calling → s.wake.phase = .claim →
          exec .hostupFallTaken s =
            .next
              { s with
                wake :=
                  { s.wake with
                    hostupFiltered := false, hostupSince := none,
                    record := { s.wake.record with attempts := min 8 (s.wake.record.attempts + 1) },
                    wakereq := true,
                    response := some { start := s.time, length := s.wake.policy.wakeResponse * 1000 },
                    gap := none, claim := none, phase := .asserting } })
      ∧ (s.controller.standIn = .returning →
          exec .hostupFallTaken s =
            .next
              { s with
                wake := { s.wake with hostupFiltered := false, hostupSince := none }
                controller := { s.controller with standIn := .attended, divert := false, drain := false }
                hold :=
                  { queue := [], level := .below, forgotten := s.hold.forgotten + inFlightCount s.hold.queue }
                counters := s.counters.add .cutDiscarded s.hold.queue.length
                host := afterChange s .attended .cut })

/-! The host link. -/

/-- HCS_FALL (R163): the frame out is WAIT with the tag in flight, else the waiting reply, else the oldest notice, else
EMPTY, each with the previous outcome; the assembly buffer is empty. A line already low does not fall (model's reading,
assumption 6). -/
def Obligations.HcsFallChoosesFrame : Prop :=
  ∀ s : State,
    (s.host.hcsLow = true → exec .hcsFall s = .next s)
      ∧ (s.host.hcsLow = false →
          ∃ f : FrameOut,
            exec .hcsFall s =
                .next { s with host := { s.host with hcsLow := true, assembly := [], frameOut := some f } }
              ∧ f.outcome = s.host.previous
              ∧ (∀ tag, s.host.inFlight = some tag → f.kind = .wait ∧ f.tag = tag ∧ f.body = [])
              ∧ (∀ r, s.host.inFlight = none → s.host.reply = some r →
                  f.kind = .reply ∧ f.tag = r.tag ∧ f.body = r.body)
              ∧ (∀ n ns, s.host.inFlight = none → s.host.reply = none → s.host.notices = n :: ns →
                  f.kind = .notice ∧ f.tag = 0 ∧ f.body = n.body)
              ∧ (s.host.inFlight = none → s.host.reply = none → s.host.notices = [] →
                  f.kind = .empty ∧ f.tag = 0 ∧ f.body = []))

/-- HCS_RISE with no frame of the host's (R164, R165 case 1, R172): a reply clocked whole leaves its slot and a notice
clocked whole the front of the queue, with ATTN at the level that leaves; a frame cut short is kept; the previous
outcome is NONE. -/
def Obligations.HcsRiseReleasesFrame : Prop :=
  ∀ (s : State) (f : FrameOut) (clocked : List Byte),
    s.host.hcsLow = true → s.host.unseen = false → s.host.frameOut = some f → at1 clocked 0 ≠ 0xA6 →
    (8 + f.body.length ≤ clocked.length → f.kind = .reply →
        exec (.hcsRise clocked) s =
          .next
            { s with
              host :=
                { s.host with
                  reply := none, attn := !s.host.notices.isEmpty, hcsLow := false, frameOut := none, assembly := [],
                  previous := .none } })
      ∧ (8 + f.body.length ≤ clocked.length → f.kind = .notice →
          exec (.hcsRise clocked) s =
            .next
              { s with
                host :=
                  { s.host with
                    notices := s.host.notices.tail,
                    attn := s.host.reply.isSome || !s.host.notices.tail.isEmpty, hcsLow := false, frameOut := none,
                    assembly := [], previous := .none } })
      ∧ (clocked.length < 8 + f.body.length →
          exec (.hcsRise clocked) s =
            .next { s with host := { s.host with hcsLow := false, frameOut := none, assembly := [], previous := .none } })

/-- The judgement of the host's frame takes the first case that holds (R165): NONE, SHORT, BAD_CHECK, NOT_TAKEN_BUSY,
UNKNOWN_KIND, TAKEN. -/
def Obligations.JudgementTakesFirstCase : Prop :=
  ∀ (busy : Bool) (clocked : List Byte),
    ((clocked = [] ∨ at1 clocked 0 ≠ 0xA6) → judgeFrame busy clocked = .none)
      ∧ (at1 clocked 0 = 0xA6 → (clocked.length < 6 ∨ clocked.length < 8 + at2 clocked 4) →
          judgeFrame busy clocked = .short)
      ∧ (at1 clocked 0 = 0xA6 → 8 + at2 clocked 4 ≤ clocked.length →
          (1600 < at2 clocked 4
              ∨ slice clocked (6 + at2 clocked 4) 2 ≠ checkBytes (clocked.take (6 + at2 clocked 4))) →
          judgeFrame busy clocked = .badCheck)
      ∧ (at1 clocked 0 = 0xA6 → 8 + at2 clocked 4 ≤ clocked.length → at2 clocked 4 ≤ 1600 →
          slice clocked (6 + at2 clocked 4) 2 = checkBytes (clocked.take (6 + at2 clocked 4)) →
          judgeFrame busy clocked =
            (if busy then .notTakenBusy
             else if (requestOfCode (clocked.getD 1 0)).isNone then .unknownKind
             else .taken))

/-- A rise whose judgement is not TAKEN runs no request: the frame out is released, the outcome recorded, and at most one
host-link counter raised (R164, R165). A transaction in progress when a full reset ended is judged NOT_TAKEN_BUSY and
releases nothing (R167). -/
def Obligations.HcsRiseWithoutRequest : Prop :=
  ∀ (s : State) (clocked : List Byte) (o : FrameOutcome),
    s.host.hcsLow = true →
    (s.host.unseen = false → judgeFrame (busyAfter clocked.length s) clocked = o → o ≠ .taken →
        exec (.hcsRise clocked) s =
          .next
            { s with
              host :=
                { releaseFrame clocked.length s.host with
                  hcsLow := false, frameOut := none, assembly := assembled clocked, previous := o }
              counters :=
                match o with
                | .short => s.counters.add .hostShort 1
                | .badCheck => s.counters.add .hostBadCheck 1
                | .notTakenBusy => s.counters.add .hostBusy 1
                | .none | .unknownKind | .taken => s.counters })
      ∧ (s.host.unseen = true →
          exec (.hcsRise clocked) s =
            .next
              { s with
                host := { s.host with hcsLow := false, frameOut := none, unseen := false, previous := .notTakenBusy }
                counters := s.counters.add .hostBusy 1 })

/-- A request frame laid out as section 11.1 states, clocked whole with any fill after it while the port is free once the
frame out is released, is taken as exactly that request with exactly that tag and body (R164, R165, R168, R184). -/
def Obligations.HcsRiseRunsRequestSent : Prop :=
  ∀ (s : State) (k : RequestKind) (tag : Byte) (body fill : List Byte),
    s.host.hcsLow = true → s.host.unseen = false → body.length ≤ 1600 →
    busyAfter (hostFrame (requestCode k) tag 0 body ++ fill).length s = false →
    exec (.hcsRise (hostFrame (requestCode k) tag 0 body ++ fill)) s =
      exec (requestCommand k tag body)
        { s with
          host :=
            { releaseFrame (hostFrame (requestCode k) tag 0 body ++ fill).length s.host with
              hcsLow := false, frameOut := none, assembly := hostFrame (requestCode k) tag 0 body } }

/-- A record laid out as section 11.6 states is read back as exactly that record, whatever bytes follow before the next
gap, and is then taken as its command (R150, R185; the bytes that follow: assumption 8). -/
def Obligations.StationRecordsReadBack : Prop :=
  ∀ (r : StationIn) (rest : List Byte) (s : State),
    (∀ frame, r = .rxFrame frame → 1 ≤ frame.length ∧ frame.length ≤ 1600) →
    decodeRecord (r.bytes ++ rest) = some r
      ∧ exec (.stationRecordError (r.bytes ++ rest)) s = exec r.command s

/-! Requests. -/

/-- A request that finds the port busy is not taken: the outcome is NOT_TAKEN_BUSY, its counter rises, and nothing else
changes (R165 case 4). -/
def Obligations.BusyPortTakesNoRequest : Prop :=
  ∀ (c : Instr) (s : State), isRequest c = true → portBusy s = true →
    exec c s =
      .next
        { s with
          host := { s.host with previous := .notTakenBusy }
          counters := s.counters.add .hostBusy 1 }

/-- A refused request changes nothing in the device but the previous outcome and the reply slot with its ATTN (R169). -/
def Obligations.RefusedRequestChangesNothing : Prop :=
  ∀ (c : Instr) (s t : State) (r : Reply) (x : Byte),
    isRequest c = true → PortFree s → exec c s = .next t → t.host.reply = some r → r.body = [x] → x ≠ 0 →
    t = { s with host := { s.host with previous := .taken, reply := some r, attn := true } }

/-- A taken request is answered with one reply of its tag at its taking, or, for HAND OVER alone, is in flight with its
tag (R168). -/
def Obligations.TakenRequestIsAnswered : Prop :=
  ∀ (k : RequestKind) (tag : Byte) (body : List Byte) (s : State), PortFree s →
    ∃ t, exec (requestCommand k tag body) s = .next t ∧ t.host.previous = .taken
      ∧ ((t.host.inFlight = none ∧ ∃ b, t.host.reply = some { tag := tag, body := b })
          ∨ (k = .handOver ∧ t.host.inFlight = some tag ∧ t.host.reply = none))

/-- Outside ATTENDED an edit request is refused: with BAD_LENGTH where its length is not the one its body declares (unknown
codes: assumption 9), with WRONG_STATE otherwise; the reply carries the request's tag, and no table, no rule, no
template, no session and no policy changes (R5, R169). -/
def Obligations.EditsRefusedOutsideAttended : Prop :=
  ∀ (k : RequestKind) (tag : Byte) (body : List Byte) (s : State), isEdit (requestCommand k tag body) = true →
    PortFree s → s.controller.standIn ≠ .attended →
    (editLengthOk k body = false → exec (requestCommand k tag body) s = .next (refused s tag .badLength))
      ∧ (editLengthOk k body = true → exec (requestCommand k tag body) s = .next (refused s tag .wrongState))

/-- NOP and POLICY GET (R173, R176): taken in every state, they change nothing; the reply carries the time base value,
the number of notices and the lost count, or the policy record; a body that is not empty is refused with BAD_LENGTH. -/
def Obligations.NopAndPolicyGetReport : Prop :=
  ∀ (tag : Byte) (body : List Byte) (s : State), PortFree s →
    (body = [] →
        exec (.nop tag body) s =
            .next (answered s tag ([0] ++ be32 s.time.toNat ++ [byte s.host.notices.length] ++ be16 s.host.lost))
          ∧ exec (.policyGet tag body) s = .next (answered s tag (0 :: policyBytes s.wake.policy)))
      ∧ (body ≠ [] →
          exec (.nop tag body) s = .next (refused s tag .badLength)
            ∧ exec (.policyGet tag body) s = .next (refused s tag .badLength))

/-- EVIDENCE READ, EVIDENCE RELEASE and WAKE RECORD (R136, R137, R140): taken in every state; the reads change nothing, the
release empties both slots, clears the lock and the uncaptured count and nothing else; a body that is not empty is refused
with BAD_LENGTH. -/
def Obligations.WakeUnitRequests : Prop :=
  ∀ (tag : Byte) (body : List Byte) (s : State), PortFree s →
    (body = [] →
        exec (.evidenceRead tag body) s =
          .next
            (answered s tag
              ([0, flagByte s.wake.lock, 0] ++ be16 s.wake.uncaptured ++ evidenceBytes s.wake.slotA
                ++ evidenceBytes s.wake.slotB))
        ∧ exec (.wakeRecord tag body) s =
            .next
              (answered s tag
                (0 :: (wakeRecordBytes s.wake.record ++ [s.wake.phase.code] ++ timeLeft s.wake s.time
                  ++ [flagByte s.wake.wakereq, flagByte s.wake.hostupFiltered])))
        ∧ exec (.evidenceRelease tag body) s =
            .next
              { answered s tag
                  ([0, byte (bit s.wake.slotA.isSome + bit s.wake.slotB.isSome)] ++ be16 s.wake.uncaptured) with
                wake := { s.wake with slotA := none, slotB := none, lock := false, uncaptured := 0 } })
      ∧ (body ≠ [] →
          exec (.evidenceRead tag body) s = .next (refused s tag .badLength)
            ∧ exec (.wakeRecord tag body) s = .next (refused s tag .badLength)
            ∧ exec (.evidenceRelease tag body) s = .next (refused s tag .badLength))

/-- The reads in pieces (R31, R67, R84, R95, R127; in HOLD STATUS the count byte stands before the summary, which is the
model's reading, assumption 18): a start index within the table is answered with the records from it
on; one beyond it is refused with BAD_FIELD, a body of another length with BAD_LENGTH; nothing else changes. -/
def Obligations.ReadsInPieces : Prop :=
  ∀ (tag : Byte) (body : List Byte) (s : State), PortFree s →
    (body.length = 1 → at1 body 0 ≤ 23 →
        exec (.identityList tag body) s =
          .next
            (answered s tag (piecesBody [] [] (recordsFrom (at1 body 0) s.responder.entries (entryRecord s.time)))))
      ∧ (body.length = 1 → at1 body 0 ≤ 31 →
          exec (.ruleList tag body) s =
            .next (answered s tag (piecesBody [] [] (ruleRecords (at1 body 0) s.classifier.rules))))
      ∧ (body.length = 1 → at1 body 0 ≤ 7 →
          exec (.templateList tag body) s =
            .next
              (answered s tag
                (piecesBody [] (be16 (storedBytes s.builder.templates))
                  (recordsFrom (at1 body 0) s.builder.templates (templateRecord s.classifier.rules)))))
      ∧ (body.length = 1 → at1 body 0 ≤ 11 →
          exec (.sessionGet tag body) s =
            .next (answered s tag (piecesBody [] [] (recordsFrom (at1 body 0) s.keeper.sessions sessionRecord))))
      ∧ (body.length = 1 → at1 body 0 ≤ 63 →
          exec (.holdStatus tag body) s =
            .next (answered s tag (piecesBody (holdSummary s) [] (heldRecords (at1 body 0) s.hold.queue))))
      ∧ (body.length = 1 → 24 ≤ at1 body 0 → exec (.identityList tag body) s = .next (refused s tag .badField))
      ∧ (body.length = 1 → 32 ≤ at1 body 0 → exec (.ruleList tag body) s = .next (refused s tag .badField))
      ∧ (body.length = 1 → 8 ≤ at1 body 0 → exec (.templateList tag body) s = .next (refused s tag .badField))
      ∧ (body.length = 1 → 12 ≤ at1 body 0 → exec (.sessionGet tag body) s = .next (refused s tag .badField))
      ∧ (body.length = 1 → 64 ≤ at1 body 0 → exec (.holdStatus tag body) s = .next (refused s tag .badField))
      ∧ (body.length ≠ 1 →
          ∀ c ∈ [Instr.identityList tag body, .ruleList tag body, .templateList tag body, .sessionGet tag body,
              .holdStatus tag body],
            exec c s = .next (refused s tag .badLength))

/-- Records are given whole while the body stays within 1600 bytes, and the next index is the first that did not fit
(R31, R67, R84, R95, R127, R169). -/
def Obligations.PiecesStayWithinTheBody : Prop :=
  ∀ (used : Nat) (records : List (Nat × List Byte)), used ≤ 1600 →
    used + (pieces used records).1.flatten.length ≤ 1600
      ∧ (pieces used records).1 = (records.map (fun r => r.2)).take (pieces used records).1.length
      ∧ (pieces used records).2 = (records[(pieces used records).1.length]?).map (fun r => r.1)
      ∧ (∀ r, records[(pieces used records).1.length]? = some r →
          1600 < used + (pieces used records).1.flatten.length + r.2.length)

/-- STATUS and STATUS_CLEAR (R183): PLAIN reports and changes nothing, CLEAR reports the same and zeroes every device
counter; another option is refused with BAD_FIELD, another length with BAD_LENGTH. That the reply carries the host link's
lost count, which makes it 143 bytes long, is the model's reading of R180, R183 and section 11.2 (assumption 27). -/
def Obligations.StatusReportsAndClears : Prop :=
  ∀ (tag : Byte) (body : List Byte) (s : State), PortFree s →
    exec (.status tag [0]) s = .next (answered s tag (statusBody s))
      ∧ exec (.statusClear tag) s =
          .next { answered s tag (statusBody s) with counters := zeroCounters }
      ∧ (body.length = 1 → 2 ≤ at1 body 0 → exec (.status tag body) s = .next (refused s tag .badField))
      ∧ (body.length ≠ 1 → exec (.status tag body) s = .next (refused s tag .badLength))
      ∧ (statusBody s).length = 143

/-- POLICY SET (R174, R175): the length, the state, then every field within its range, or the record is kept; taken, the
new record replaces the old one whole. -/
def Obligations.PolicySetChecksAndReplaces : Prop :=
  ∀ (tag : Byte) (body : List Byte) (s : State), PortFree s →
    let good : Prop :=
      at1 body 0 < 128 ∧ at1 body 1 < 128 ∧ at1 body 2 ≤ 1 ∧ at1 body 3 ≤ 1 ∧ 25 ≤ at1 body 4 ∧ at1 body 4 ≤ 100
        ∧ 1 ≤ at1 body 5 ∧ at1 body 5 ≤ 60 ∧ at1 body 6 ≤ 7 ∧ 2 ≤ at1 body 7 ∧ at1 body 7 ≤ 120
        ∧ 10 ≤ at2 body 8 ∧ at2 body 8 ≤ 3600 ∧ 1 ≤ at2 body 10 ∧ at2 body 10 ≤ 1000
    (body.length ≠ 12 → exec (.policySet tag body) s = .next (refused s tag .badLength))
      ∧ (body.length = 12 → s.controller.standIn ≠ .attended →
          exec (.policySet tag body) s = .next (refused s tag .wrongState))
      ∧ (body.length = 12 → s.controller.standIn = .attended → ¬ good →
          exec (.policySet tag body) s = .next (refused s tag .badField))
      ∧ (body.length = 12 → s.controller.standIn = .attended → good →
          ∃ t, exec (.policySet tag body) s = .next t
            ∧ t.wake =
                { s.wake with
                  policy :=
                    { light := body.getD 0 0, deep := body.getD 1 0,
                      defaultAction := if at1 body 2 = 0 then .discard else .hold,
                      overflow := if at1 body 3 = 0 then .dropNewest else .dropOldest,
                      highMark := at1 body 4, wakeResponse := at1 body 5, retries := at1 body 6,
                      claimWindow := at1 body 7, leaseMargin := at2 body 8, answerLimit := at2 body 10 } }
            ∧ t.host = (answered s tag [0]).host
            ∧ sameTables { s with wake := t.wake } { t with host := s.host })

/-- IDENTITY PUT and IDENTITY DROP in ATTENDED (R29, R30): an entry that passes the checks is written at its index, an
entry that nothing names leaves it empty, and nothing else changes; what fails a check is refused with the status of the
first that fails: BAD_LENGTH, BAD_FIELD, NO_ENTRY, DUPLICATE, NO_ROOM or IN_USE. The lengths of unknown kinds and the
borders of a unicast address are the model's readings (assumptions 9 and 10). -/
def Obligations.IdentityEdits : Prop :=
  ∀ (tag : Byte) (body : List Byte) (s : State), PortFree s → s.controller.standIn = .attended →
    (identityPutLengthOk body = false → exec (.identityPut tag body) s = .next (refused s tag .badLength))
      ∧ (identityPutLengthOk body = true → identityPutEntry s.time body = none →
          exec (.identityPut tag body) s = .next (refused s tag .badField))
      ∧ (∀ i e st, identityPutLengthOk body = true → identityPutEntry s.time body = some (i, e) →
          entryCheck s.responder.entries i e = some st →
          exec (.identityPut tag body) s = .next (refused s tag st))
      ∧ (∀ i e, identityPutLengthOk body = true → identityPutEntry s.time body = some (i, e) →
          entryCheck s.responder.entries i e = none →
          ∃ t, exec (.identityPut tag body) s = .next t
            ∧ t.responder = { s.responder with entries := s.responder.entries.set i (some e) }
            ∧ t.host = (answered s tag [0]).host
            ∧ sameTables { s with responder := t.responder } { t with host := s.host })
      ∧ (body.length ≠ 1 → exec (.identityDrop tag body) s = .next (refused s tag .badLength))
      ∧ (body.length = 1 → 24 ≤ at1 body 0 → exec (.identityDrop tag body) s = .next (refused s tag .badField))
      ∧ (∀ e, body.length = 1 → at1 body 0 ≤ 23 → lookup s.responder.entries (at1 body 0) = some e →
          entryInUse s (at1 body 0) e = false →
          ∃ t, exec (.identityDrop tag body) s = .next t
            ∧ t.responder = { s.responder with entries := s.responder.entries.set (at1 body 0) none }
            ∧ t.host = (answered s tag [0]).host
            ∧ sameTables { s with responder := t.responder } { t with host := s.host })
      ∧ (∀ e, body.length = 1 → at1 body 0 ≤ 23 → lookup s.responder.entries (at1 body 0) = some e →
          entryInUse s (at1 body 0) e = true → exec (.identityDrop tag body) s = .next (refused s tag .inUse))
      ∧ (body.length = 1 → at1 body 0 ≤ 23 → lookup s.responder.entries (at1 body 0) = none →
          exec (.identityDrop tag body) s = .next (refused s tag .noEntry))

/-- RULE PUT and RULE DROP in ATTENDED (R65, R66): a rule is placed at its position and the later ones move one place on
with their counts; a dropped rule leaves and the later ones move one place back; the reply gives the new number. What
fails a check is refused with the status of the first that fails: BAD_LENGTH, BAD_FIELD for the body or a position beyond
the list's end, NO_ENTRY or NO_ROOM. The lengths of a source prefix of unknown version are the model's reading
(assumption 9). -/
def Obligations.RuleEdits : Prop :=
  ∀ (tag : Byte) (body : List Byte) (s : State), PortFree s → s.controller.standIn = .attended →
    (rulePutLengthOk body = false → exec (.rulePut tag body) s = .next (refused s tag .badLength))
      ∧ (rulePutLengthOk body = true → rulePutRule body = none →
          exec (.rulePut tag body) s = .next (refused s tag .badField))
      ∧ (∀ r, rulePutLengthOk body = true → rulePutRule body = some r → s.classifier.rules.length < at1 body 0 →
          exec (.rulePut tag body) s = .next (refused s tag .badField))
      ∧ (∀ r, rulePutLengthOk body = true → rulePutRule body = some r → at1 body 0 ≤ s.classifier.rules.length →
          actionNamed s.builder.templates r.action = true → s.classifier.rules.length < 32 →
          ∃ t, exec (.rulePut tag body) s = .next t
            ∧ t.classifier.rules =
                s.classifier.rules.take (at1 body 0) ++ r :: s.classifier.rules.drop (at1 body 0)
            ∧ t.host = (answered s tag [0, byte (s.classifier.rules.length + 1)]).host
            ∧ sameTables { s with classifier := { s.classifier with rules := t.classifier.rules } }
                { t with host := s.host })
      ∧ (∀ r, rulePutLengthOk body = true → rulePutRule body = some r → at1 body 0 ≤ s.classifier.rules.length →
          actionNamed s.builder.templates r.action = true → 32 ≤ s.classifier.rules.length →
          exec (.rulePut tag body) s = .next (refused s tag .noRoom))
      ∧ (∀ r, rulePutLengthOk body = true → rulePutRule body = some r → at1 body 0 ≤ s.classifier.rules.length →
          actionNamed s.builder.templates r.action = false →
          exec (.rulePut tag body) s = .next (refused s tag .noEntry))
      ∧ (body.length ≠ 1 → exec (.ruleDrop tag body) s = .next (refused s tag .badLength))
      ∧ (body.length = 1 → 32 ≤ at1 body 0 → exec (.ruleDrop tag body) s = .next (refused s tag .badField))
      ∧ (body.length = 1 → at1 body 0 ≤ 31 → at1 body 0 < s.classifier.rules.length →
          ∃ t, exec (.ruleDrop tag body) s = .next t
            ∧ t.classifier.rules = s.classifier.rules.eraseIdx (at1 body 0)
            ∧ t.host = (answered s tag [0, byte (s.classifier.rules.length - 1)]).host
            ∧ sameTables { s with classifier := { s.classifier with rules := t.classifier.rules } }
                { t with host := s.host })
      ∧ (body.length = 1 → at1 body 0 ≤ 31 → s.classifier.rules.length ≤ at1 body 0 →
          exec (.ruleDrop tag body) s = .next (refused s tag .noEntry))

/-- TEMPLATE PUT and TEMPLATE DROP in ATTENDED (R81, R83): a template that passes the checks is stored at its index
within 1536 bytes in all; one that no rule names can be dropped; the reply gives the bytes now stored. What fails a
check is refused with the status of the first that fails: BAD_LENGTH, BAD_FIELD and NO_ROOM, or BAD_LENGTH, BAD_FIELD,
NO_ENTRY and IN_USE. The bits of a patch point that have no meaning and are not called reserved are judged as the model
chooses (assumption 29). -/
def Obligations.TemplateEdits : Prop :=
  ∀ (tag : Byte) (body : List Byte) (s : State), PortFree s → s.controller.standIn = .attended →
    (templatePutLengthOk body = false → exec (.templatePut tag body) s = .next (refused s tag .badLength))
      ∧ (templatePutLengthOk body = true → templatePutTemplate body = none →
          exec (.templatePut tag body) s = .next (refused s tag .badField))
      ∧ (∀ i x, templatePutLengthOk body = true → templatePutTemplate body = some (i, x) →
          x.bytes.length + storedBytes (s.builder.templates.set i none) ≤ 1536 →
          ∃ t, exec (.templatePut tag body) s = .next t
            ∧ t.builder = { templates := s.builder.templates.set i (some x) }
            ∧ t.host = (answered s tag (0 :: be16 (storedBytes t.builder.templates))).host
            ∧ sameTables { s with builder := t.builder } { t with host := s.host })
      ∧ (∀ i x, templatePutLengthOk body = true → templatePutTemplate body = some (i, x) →
          1536 < x.bytes.length + storedBytes (s.builder.templates.set i none) →
          exec (.templatePut tag body) s = .next (refused s tag .noRoom))
      ∧ (body.length ≠ 1 → exec (.templateDrop tag body) s = .next (refused s tag .badLength))
      ∧ (body.length = 1 → 8 ≤ at1 body 0 → exec (.templateDrop tag body) s = .next (refused s tag .badField))
      ∧ (body.length = 1 → at1 body 0 ≤ 7 → lookup s.builder.templates (at1 body 0) = none →
          exec (.templateDrop tag body) s = .next (refused s tag .noEntry))
      ∧ (∀ x, body.length = 1 → at1 body 0 ≤ 7 → lookup s.builder.templates (at1 body 0) = some x →
          (∀ r ∈ s.classifier.rules, r.action ≠ .template (at1 body 0)) →
          ∃ t, exec (.templateDrop tag body) s = .next t
            ∧ t.builder = { templates := s.builder.templates.set (at1 body 0) none }
            ∧ t.host = (answered s tag (0 :: be16 (storedBytes t.builder.templates))).host
            ∧ sameTables { s with builder := t.builder } { t with host := s.host })
      ∧ (∀ x, body.length = 1 → at1 body 0 ≤ 7 → lookup s.builder.templates (at1 body 0) = some x →
          (∃ r ∈ s.classifier.rules, r.action = .template (at1 body 0)) →
          exec (.templateDrop tag body) s = .next (refused s tag .inUse))

/-- SESSION PUT and SESSION DROP in ATTENDED (R93, R94): a record that passes the checks is written at its index; a record
in any state can be dropped; nothing else changes. What fails a check is refused with the status of the first that fails:
BAD_LENGTH, BAD_FIELD, NO_ENTRY, BAD_FIELD or DUPLICATE, or BAD_LENGTH, BAD_FIELD and NO_ENTRY. That an address length
other than 4 and 16 and a reserved byte other than 0 fail the first BAD_FIELD check is the model's choice
(assumption 9). -/
def Obligations.SessionEdits : Prop :=
  ∀ (tag : Byte) (body : List Byte) (s : State), PortFree s → s.controller.standIn = .attended →
    (sessionPutLengthOk body = false → exec (.sessionPut tag body) s = .next (refused s tag .badLength))
      ∧ (sessionPutLengthOk body = true → sessionPutRecord s.keeper.nextProbe body = none →
          exec (.sessionPut tag body) s = .next (refused s tag .badField))
      ∧ (∀ i x, sessionPutLengthOk body = true → sessionPutRecord s.keeper.nextProbe body = some (i, x) →
          sessionCheck i x s = none →
          ∃ t, exec (.sessionPut tag body) s = .next t
            ∧ t.keeper = { s.keeper with sessions := s.keeper.sessions.set i (some x) }
            ∧ x.state = .ready ∧ x.atReturn = none ∧ x.outstanding = 0 ∧ x.phase = .none ∧ x.nextDue = none
            ∧ x.deadline = none ∧ x.lastHeard = none ∧ x.probesSent = 0 ∧ x.peerAcks = 0 ∧ x.peerProbes = 0
            ∧ x.dataHeld = 0 ∧ x.outOfWindow = 0
            ∧ t.host = (answered s tag [0]).host
            ∧ sameTables { s with keeper := t.keeper } { t with host := s.host })
      ∧ (∀ i x st, sessionPutLengthOk body = true → sessionPutRecord s.keeper.nextProbe body = some (i, x) →
          sessionCheck i x s = some st → exec (.sessionPut tag body) s = .next (refused s tag st))
      ∧ (body.length ≠ 1 → exec (.sessionDrop tag body) s = .next (refused s tag .badLength))
      ∧ (body.length = 1 → 12 ≤ at1 body 0 → exec (.sessionDrop tag body) s = .next (refused s tag .badField))
      ∧ (∀ x, body.length = 1 → at1 body 0 ≤ 11 → lookup s.keeper.sessions (at1 body 0) = some x →
          ∃ t, exec (.sessionDrop tag body) s = .next t
            ∧ t.keeper = { s.keeper with sessions := s.keeper.sessions.set (at1 body 0) none }
            ∧ t.host = (answered s tag [0]).host
            ∧ sameTables { s with keeper := t.keeper } { t with host := s.host })
      ∧ (body.length = 1 → at1 body 0 ≤ 11 → lookup s.keeper.sessions (at1 body 0) = none →
          exec (.sessionDrop tag body) s = .next (refused s tag .noEntry))

/-- What IDENTITY LIST, SESSION GET and POLICY GET report of an item that the host may write, sent back as the body of a
PUT, is read as the item just reported, with its runtime fields as a PUT starts them (R29, R93, R175, R184, section
11.2). -/
def Obligations.PutLayoutsReadBack : Prop :=
  (∀ (now : Time) (i : Nat) (e : IdentityEntry),
      i ≤ 23 → e.vlan ≤ 4094 → e.link < 256 → e.addr.length = e.kind.addrLength → addrAdmissible e.kind e.addr = true →
      (e.isAddress = false → e.defend = false ∧ e.answer = false ∧ e.lease = none) → (e.kind = .link → e.link = 0) →
      (∀ l, e.lease = some l → l.start = now ∧ 1 ≤ l.seconds ∧ l.seconds ≤ 2592000) →
      identityPutLengthOk (entryPut i e) = true
        ∧ identityPutEntry now (entryPut i e) =
            some (i, freshEntry e.kind e.vlan e.addr e.link e.defend e.answer e.lease))
    ∧ (∀ (n i : Nat) (x : Session),
        i ≤ 11 → x.localIndex < 256 → (x.remoteAddr.length = 4 ∨ x.remoteAddr.length = 16) → x.localPort < 65536 →
        x.remotePort < 65536 → x.nextHop.length = 6 → isUnicastMac x.nextHop = true → x.window < 65536 →
        10 ≤ x.interval → x.interval ≤ 7200 → 1 ≤ x.timeout → x.timeout ≤ 60 → 1 ≤ x.limit → x.limit ≤ 10 →
        x.idleAge ≤ x.interval →
        sessionPutLengthOk (sessionPutBytes i x) = true
          ∧ ∃ y, sessionPutRecord n (sessionPutBytes i x) = some (i, y)
            ∧ sessionPutBytes i y = sessionPutBytes i x ∧ y.localIndex = x.localIndex
            ∧ y.remoteAddr = x.remoteAddr ∧ y.sndNxt = x.sndNxt ∧ y.rcvNxt = x.rcvNxt ∧ y.window = x.window
            ∧ y.localPort = x.localPort ∧ y.remotePort = x.remotePort ∧ y.nextHop = x.nextHop
            ∧ y.interval = x.interval ∧ y.timeout = x.timeout ∧ y.limit = x.limit ∧ y.idleAge = x.idleAge)
    ∧ (∀ p : Policy,
        p.light.toNat < 128 → p.deep.toNat < 128 → 25 ≤ p.highMark → p.highMark ≤ 100 → 1 ≤ p.wakeResponse →
        p.wakeResponse ≤ 60 → p.retries ≤ 7 → 2 ≤ p.claimWindow → p.claimWindow ≤ 120 → 10 ≤ p.leaseMargin →
        p.leaseMargin ≤ 3600 → 1 ≤ p.answerLimit → p.answerLimit ≤ 1000 → policySetRecord (policyBytes p) = some p)

/-- What RULE LIST reports of a rule that the host may write, sent back as the body of a RULE PUT at any position, is read
as that rule with counts 0 (R62, R63, R65, R184, section 11.2). -/
def Obligations.RuleLayoutReadsBack : Prop :=
  ∀ (p : Nat) (r : Rule),
    p < 256 → matchFieldsOk r.fields = true → 1 ≤ r.limit → r.limit ≤ 65535 → r.action.templateIndex ≤ 7 →
    (∀ v, r.fields.etherType = some v → v < 65536) → (∀ v, r.fields.ipProto = some v → v < 256) →
    (∀ x, r.fields.source = some x → x.addr.length = 4 ∨ x.addr.length = 16) →
    (∀ x, r.fields.ports = some x → x.1 < 65536 ∧ x.2 < 65536) →
    (∀ x, r.fields.pattern = some x → x.offset < 256 ∧ x.mask.length = x.bytes.length) →
    rulePutLengthOk (byte p :: ruleBytes r) = true
      ∧ rulePutRule (byte p :: ruleBytes r) = some { r with hits := 0, overflows := 0 }

/-- HAND OVER in ATTENDED with a body of one byte (R6 to R11): refused with the status of the first of its other checks
that fails. Taken, it sets the depth and raises DIVERT; the wake record, the evidence slots, the lock and the uncaptured
count are cleared before the causes of the hand-over itself, which are LEASE of an entry whose margin point is reached
(R41) and SESSION_LOST of a session whose entry is EXPIRED; every identity entry takes the runtime values of R28, every
rule's counts are 0, and every session starts from its presets (R96): LOST on an EXPIRED entry, PROBING where it is due
at the taking (assumption 13). The announcement list is built anew, one item for each entry that R46 names in index order
(its number: assumption 15): with the link UP its items are in the transmit queue from the first on and the others
pending, which there are only where the queue is full (R47); with the link DOWN all are pending. With the link UP and a
list that is not empty the state is ARMING with the request in flight; with an empty list arming ends at the taking (R8),
and with the link DOWN too, with the LINK_DOWN flag in the reply; the state is then STANDING, or CALLING where a cause is
enabled. One STATE_CHANGED notice tells each change (R3). A frame still in classification, which is one carried past a
return cut short, stands, which is the model's choice (assumption 25). -/
def Obligations.HandOverStartsStandIn : Prop :=
  ∀ (tag : Byte) (body : List Byte) (s : State) (d : Depth), PortFree s → s.controller.standIn = .attended →
    body.length = 1 →
    (depthOf (at1 body 0) = none → exec (.handOver tag body) s = .next (refused s tag .badField))
      ∧ (∀ st, depthOf (at1 body 0) = some d → handOverCheck s = some st →
          exec (.handOver tag body) s = .next (refused s tag st))
      ∧ (depthOf (at1 body 0) = some d → handOverCheck s = none →
          let entries : List (Option IdentityEntry) :=
            s.responder.entries.map (Option.map (fun e =>
              { e with
                state :=
                  if e.isAddress ∧ (e.state = .expired ∨ e.deadlinePassed s.time = true) then .expired else .active
                conflicts := 0, lastDefence := none, answers := 0, report := none, budget := 0, defence := false
                leaseMark := e.marginReached s.time s.wake.policy.leaseMargin }))
          let leases : Prop := ∃ i e, lookup entries i = some e ∧ e.leaseMark = true
          let losses : Prop :=
            ∃ j x e, lookup s.keeper.sessions j = some x ∧ lookup entries x.localIndex = some e ∧ e.state = .expired
          ∃ t, exec (.handOver tag body) s = .next t
            ∧ t.controller.depth = some d ∧ t.controller.divert = true ∧ t.controller.drain = s.controller.drain
            ∧ t.responder.entries = entries
            ∧ t.classifier =
                { s.classifier with
                  rules := s.classifier.rules.map (fun r => { r with hits := 0, overflows := 0 }) }
            ∧ t.builder = s.builder ∧ t.hold = s.hold ∧ t.port.linkUp = s.port.linkUp
            ∧ t.port.rxBuffer = s.port.rxBuffer ∧ t.wake.policy = s.wake.policy ∧ t.counters = s.counters
            ∧ t.wake.record.depth = some d ∧ t.wake.record.outcome = .none
            ∧ (∀ c, t.wake.record.noted.has c = true ↔ (c = .lease ∧ leases) ∨ (c = .sessionLost ∧ losses))
            ∧ (¬ leases → ¬ losses →
                t.wake =
                  { s.wake with
                    record :=
                      { depth := some d, firstTime := none, primary := none, enabled := 0, noted := 0, attempts := 0,
                        outcome := .none }
                    slotA := none, slotB := none, lock := false, uncaptured := 0, phase := .none, response := none,
                    gap := none, claim := none, wakereq := false })
            ∧ (∀ j x, lookup s.keeper.sessions j = some x → x.idleAge ≤ x.interval → x.interval ≤ 7200 →
                let expired : Prop := ∃ e, lookup entries x.localIndex = some e ∧ e.state = .expired
                let heard : Time := s.time - BitVec.ofNat 32 (x.idleAge * 1000)
                let y : Session :=
                  { x with
                    state := .ready, atReturn := none, outstanding := 0, phase := .none, deadline := none,
                    lastHeard := some heard, nextDue := some (heard + BitVec.ofNat 32 (x.interval * 1000)),
                    probesSent := 0, peerAcks := 0, peerProbes := 0, dataHeld := 0, outOfWindow := 0 }
                (expired → lookup t.keeper.sessions j = some { y with state := .lost, nextDue := none })
                  ∧ (¬ expired → x.idleAge < x.interval → lookup t.keeper.sessions j = some y)
                  ∧ (¬ expired → x.idleAge = x.interval →
                      ∃ z, lookup t.keeper.sessions j = some z ∧ (z.phase = .pending ∨ z.phase = .queued)
                        ∧ z =
                            { y with
                              state := .probing, nextDue := none, outstanding := 1, phase := z.phase,
                              probeId := z.probeId }))
            ∧ t.responder.build = s.responder.build + 1
            ∧ t.responder.settledDone = 0 ∧ t.responder.settledRefused = 0
            ∧ (s.port.linkUp = true →
                ∃ new, t.port.txQueue = s.port.txQueue ++ new
                  ∧ listItemsOf t.responder.build new ++ t.responder.list = announcementList entries
                  ∧ (8 ≤ t.port.txQueue.length ∨ (t.responder.list = [] ∧ pendingProbes t = [])))
            ∧ (s.port.linkUp = false → t.responder.list = announcementList entries ∧ t.port = s.port)
            ∧ (s.port.linkUp = true → announcementList entries ≠ [] →
                t.controller.standIn = .arming ∧ t.wake.record.attempts = 0 ∧ t.wake.wakereq = false
                  ∧ t.wake.phase = .none
                  ∧ t.host =
                      { afterChanges [(.arming, .handedOver)] s with previous := .taken, inFlight := some tag })
            ∧ (∀ flag : Byte,
                ((s.port.linkUp = true ∧ announcementList entries = [] ∧ BuildsOk s ∧ flag = 0)
                    ∨ (s.port.linkUp = false ∧ flag = 1)) →
                t.controller.standIn = (if t.wake.record.enabled = 0 then .standing else .calling)
                  ∧ t.host =
                      { afterChanges
                          ([(.arming, .handedOver), (.standing, .handedOver)]
                            ++ if t.wake.record.enabled = 0 then [] else [(.calling, .called)]) s with
                        previous := .taken, inFlight := none,
                        reply := some { tag := tag, body := [0, flag, 0, 0] ++ be32 s.time.toNat }, attn := true }))

/-- TAKE BACK (R16 to R18, R21): taken in STANDING with outcome SELF and in CALLING with outcome CLAIMED, refused with
WRONG_STATE elsewhere. Taken, it answers the frozen record and the frames and bytes held, every session becomes
RETURNED (R109), the wake unit's timers stop and WAKEREQ is low, the announcement list, the pending defences and the
reports due and waiting are abandoned (R45, R50), and the state is RETURNING, or ATTENDED at once where nothing is left to
deliver; a STATE_CHANGED notice tells each change (R3). -/
def Obligations.TakeBackReturnsPresence : Prop :=
  ∀ (tag : Byte) (body : List Byte) (s : State) (o : WakeOutcome), PortFree s →
    (body ≠ [] → exec (.takeBack tag body) s = .next (refused s tag .badLength))
      ∧ (body = [] → s.controller.standIn ≠ .standing → s.controller.standIn ≠ .calling →
          exec (.takeBack tag body) s = .next (refused s tag .wrongState))
      ∧ (body = [] →
          ((s.controller.standIn = .standing ∧ o = .self) ∨ (s.controller.standIn = .calling ∧ o = .claimed)) →
          ∃ t, exec (.takeBack tag body) s = .next t
            ∧ t.host =
                { afterChanges (returnChanges .takenBack s) s with
                  previous := .taken, attn := true,
                  reply :=
                    some
                      { tag := tag,
                        body :=
                          [0] ++ wakeRecordBytes { s.wake.record with outcome := o } ++ [byte s.hold.queue.length]
                            ++ be16 (bytesOf s.hold.queue) } }
            ∧ t.wake =
                { s.wake with
                  record := { s.wake.record with outcome := o }, phase := .none, response := none, gap := none,
                  claim := none, wakereq := false }
            ∧ t.keeper = { s.keeper with sessions := allReturned s.keeper.sessions }
            ∧ t.responder = abandoned s.responder ∧ t.classifier.rules = s.classifier.rules ∧ t.builder = s.builder
            ∧ t.counters = s.counters ∧ t.port.txQueue = s.port.txQueue ∧ t.port.rxBuffer = s.port.rxBuffer
            ∧ t.hold.queue.map (fun h => h.bytes) = s.hold.queue.map (fun h => h.bytes)
            ∧ t.controller.depth = s.controller.depth
            ∧ (t.controller.standIn =
                if s.hold.queue = [] ∧ s.port.rxBuffer = [] ∧ s.classifier.current = none then .attended
                else .returning))

/-- CLEAR ALL in ATTENDED (R24, R177): the tables, the rule list, the template store, the session table, the wake record
with its evidence, the policy and the counters return to their contents after a full reset; the time base, the
period-class timers, the HOSTUP filter, the forgotten deliveries, the station port and the rest of the host port
stand. -/
def Obligations.ClearAllEmptiesTables : Prop :=
  ∀ (tag : Byte) (s : State), PortFree s → s.controller.standIn = .attended →
    ∃ t, exec (.clearAll tag []) s = .next t
      ∧ t.controller = { s.controller with depth := none }
      ∧ t.responder.entries = List.replicate 24 none ∧ t.responder.list = []
      ∧ t.classifier.rules = [] ∧ t.classifier.periods = s.classifier.periods ∧ sameFrame s t
      ∧ t.builder.templates = List.replicate 8 none ∧ t.keeper.sessions = List.replicate 12 none
      ∧ t.hold = { s.hold with queue := [], level := .below }
      ∧ t.wake =
          { s.wake with
            record := State.reset.wake.record, slotA := none, slotB := none, lock := false, uncaptured := 0,
            policy := State.reset.wake.policy }
      ∧ t.counters = State.reset.counters ∧ t.time = s.time ∧ t.port = s.port ∧ t.host = (answered s tag [0]).host

/-! The station link. -/

/-- RX_FRAME and STATION_RECORD_ERROR (R150, R151, R152, R185): a frame joins a receive buffer of 0 to 5 and is refused,
with READY of room 0, by one of 6; bytes that begin with no correct record change only the station record errors
counter, and so does a stretch of clocks that holds no whole byte, which is the model's choice (assumption 8). -/
def Obligations.ReceiveBufferTakesOrRefuses : Prop :=
  ∀ (f bytes : List Byte) (s : State), 1 ≤ f.length → f.length ≤ 1600 →
    (s.port.rxBuffer.length ≤ 5 →
        exec (.rxFrame f) s =
          .next
            { s with
              port := { s.port with rxBuffer := s.port.rxBuffer ++ [f] }
              counters := s.counters.add .framesReceived 1 })
      ∧ (s.port.rxBuffer.length = 6 →
          exec (.rxFrame f) s =
            .next
              { s with
                port := { s.port with sent := s.port.sent ++ [.ready 0] }
                counters := s.counters.add .receiveRefused 1 })
      ∧ (decodeRecord bytes = none →
          exec (.stationRecordError bytes) s = .next { s with counters := s.counters.add .recordErrors 1 })

/-- TX_DONE and TX_REFUSED (R8, R10, R11, R99, R154, R155): on an empty transmit queue nothing happens; otherwise the
oldest slot is freed and counted, and the slots behind it keep their order. The waiting owners are then invited, in a
stand-in with the link UP only: the responder's items and the keeper's probes join the tail, the owner named by the grant
turn first, and the turn passes where that owner placed an item; room is left only where no list item and no probe waits.
The slot of a session's current probe starts its probe timer; of another probe (the numbers of probes and of lists:
assumption 15) it changes only probes sent, by TX_DONE, and not of a RETURNED record. The slot of an item of the present
list is counted in ARMING, and the last one unsettled ends arming: the HAND OVER reply, then STANDING, or CALLING where a
cause is enabled. -/
def Obligations.SettlementFreesOldestSlot : Prop :=
  (∀ s : State, s.port.txQueue = [] → exec .txDone s = .next s ∧ exec .txRefused s = .next s)
    ∧ ∀ (s : State) (slot : TxSlot) (rest : List TxSlot) (done : Bool), s.port.txQueue = slot :: rest →
      ∃ t, exec (if done then .txDone else .txRefused) s = .next t
        ∧ t.counters = s.counters.add (if done then .transmitted slot.kind else .txRefused) 1
        ∧ t.port.rxBuffer = s.port.rxBuffer ∧ t.port.linkUp = s.port.linkUp ∧ t.hold = s.hold
        ∧ t.classifier = s.classifier ∧ t.builder = s.builder
        ∧ (∃ first second : List TxSlot,
            t.port.txQueue = rest ++ first ++ second
              ∧ ((s.controller.standIn.serving = false ∨ s.port.linkUp = false) → first = [] ∧ second = [])
              ∧ (s.port.turn = .responder →
                  (∀ x ∈ first, x.kind = .announce ∨ x.kind = .report) ∧ (∀ x ∈ second, x.kind = .probe)
                    ∧ t.port.turn = (if first = [] then .responder else .keeper))
              ∧ (s.port.turn = .keeper →
                  (∀ x ∈ first, x.kind = .probe) ∧ (∀ x ∈ second, x.kind = .announce ∨ x.kind = .report)
                    ∧ t.port.turn = (if first = [] then .keeper else .responder)))
        ∧ (s.controller.standIn.serving = true → s.port.linkUp = true →
            8 ≤ t.port.txQueue.length ∨ (t.responder.list = [] ∧ pendingProbes t = []))
        ∧ (∀ i n x, slot.owner = .probe i n → lookup s.keeper.sessions i = some x →
            let counted : Session := if done then { x with probesSent := min 4294967295 (x.probesSent + 1) } else x
            (x.state = .probing → x.phase = .queued → x.probeId = n → x.firstProbe ≤ n →
                lookup t.keeper.sessions i =
                  some
                    { counted with
                      phase := .timing, deadline := some (s.time + BitVec.ofNat 32 (x.timeout * 1000)) })
              ∧ (¬ (x.state = .probing ∧ x.phase = .queued ∧ x.probeId = n ∧ x.firstProbe ≤ n) →
                  let z : Session := if x.state = .returned ∨ n < x.firstProbe then x else counted
                  ∃ y, lookup t.keeper.sessions i = some y
                    ∧ (y = z
                        ∨ (z.state = .probing ∧ z.phase = .pending
                            ∧ y = { z with phase := .queued, probeId := y.probeId }))))
        ∧ ((∀ build entry, slot.owner = .listItem build entry →
              s.controller.standIn ≠ .arming ∨ build ≠ s.responder.build) →
            t.responder.settledDone = s.responder.settledDone
              ∧ t.responder.settledRefused = s.responder.settledRefused ∧ t.controller = s.controller
              ∧ t.wake = s.wake ∧ t.host = s.host)
        ∧ (∀ entry, slot.owner = .listItem s.responder.build entry → s.controller.standIn = .arming →
            t.responder.settledDone = s.responder.settledDone + (if done then 1 else 0)
              ∧ t.responder.settledRefused = s.responder.settledRefused + (if done then 0 else 1)
              ∧ (1 < unsettled s → t.controller = s.controller ∧ t.wake = s.wake ∧ t.host = s.host)
              ∧ (unsettled s = 1 → ∀ tag, s.host.inFlight = some tag →
                  t.controller.standIn = (if s.wake.record.enabled = 0 then .standing else .calling)
                    ∧ t.host.inFlight = none
                    ∧ t.host.reply =
                        some
                          { tag := tag,
                            body :=
                              [0, 0, byte t.responder.settledDone, byte t.responder.settledRefused]
                                ++ be32 s.time.toNat }))

/-- DELIVER_DONE (R121, R122, R21): a forgotten delivery is answered first and the queue keeps its records; with none the
record in flight at the front is removed and counted delivered; with nothing in flight the record is ignored. In
RETURNING the sending step follows, which sends the oldest WAITING records while the link is UP and fewer than 4
deliveries are unanswered, and the removal of the last record ends the return where nothing else is left. -/
def Obligations.DeliverDoneAnswersOldest : Prop :=
  ∀ s : State,
    (s.controller.standIn ≠ .returning → 0 < s.hold.forgotten →
        exec .deliverDone s = .next { s with hold := { s.hold with forgotten := s.hold.forgotten - 1 } })
      ∧ (s.controller.standIn ≠ .returning → s.hold.forgotten = 0 → inFlightCount s.hold.queue = 0 →
          exec .deliverDone s = .next s)
      ∧ (s.controller.standIn = .returning → (0 < s.hold.forgotten ∨ inFlightCount s.hold.queue = 0) →
          (s.hold.queue ≠ [] ∨ s.port.rxBuffer ≠ [] ∨ s.classifier.current ≠ none) →
          exec .deliverDone s =
            .next (sendingStep { s with hold := { s.hold with forgotten := s.hold.forgotten - 1 } }))
      ∧ (∀ h q, s.controller.standIn = .returning → s.hold.forgotten = 0 → s.hold.queue = h :: q →
          h.delivery = .inFlight → (q ≠ [] ∨ s.port.rxBuffer ≠ [] ∨ s.classifier.current ≠ none) →
          exec .deliverDone s =
            .next
              (sendingStep
                { s with
                  hold := { queue := q, level := levelOf s.wake.policy.highMark q, forgotten := 0 }
                  counters := s.counters.add .delivered 1 }))
      ∧ (∀ h, s.controller.standIn = .returning → s.hold.forgotten = 0 → s.hold.queue = [h] →
          h.delivery = .inFlight → s.port.rxBuffer = [] → s.classifier.current = none →
          exec .deliverDone s =
            .next
              { s with
                hold := { queue := [], level := levelOf s.wake.policy.highMark [], forgotten := 0 }
                counters := s.counters.add .delivered 1
                controller := { s.controller with standIn := .attended, divert := false, drain := false }
                host := afterChange s .attended .drained })
      ∧ (s.controller.standIn = .returning → s.port.linkUp = false → sendingStep s = s)
      ∧ (∀ flying waiting, s.controller.standIn = .returning → s.port.linkUp = true →
          s.hold.queue = flying ++ waiting → (∀ h ∈ flying, h.delivery = .inFlight) →
          (∀ h ∈ waiting, h.delivery = .waiting) →
          let n := 4 - (flying.length + s.hold.forgotten)
          sendingStep s =
            { s with
              hold :=
                { s.hold with
                  queue :=
                    flying ++ (waiting.take n).map (fun h => { h with delivery := .inFlight }) ++ waiting.drop n }
              port :=
                { s.port with
                  sent := s.port.sent ++ (waiting.take n).map (fun h => .deliver h.arrival h.source h.bytes) } })

/-- LINK_UP and LINK_DOWN (R157, R158, R160, R9): one that finds the link as it says changes nothing. A change in
ATTENDED, and a LINK_DOWN in RETURNING, queues one LINK_CHANGED notice and does nothing else; a LINK_UP in RETURNING
makes the sending step besides. LINK_DOWN in STANDING or CALLING notes LINK; in ARMING it ends arming and the HAND OVER
in flight is answered with the LINK_DOWN flag. LINK_UP in STANDING or CALLING discards the pending defences and the due
reports and rebuilds the announcement list (R46, R48): its items, one for each entry in index order, are in the transmit
queue from the first on and the others pending, which there are only where the queue is full; the list's number is the
model's (assumption 15). -/
def Obligations.LinkRecordsChangeLink : Prop :=
  ∀ s : State,
    (s.port.linkUp = true → exec .linkUp s = .next s)
      ∧ (s.port.linkUp = false → exec .linkDown s = .next s)
      ∧ (s.port.linkUp = false → s.controller.standIn = .attended →
          exec .linkUp s =
            .next { s with port := { s.port with linkUp := true }, host := afterLink s true .linkUp })
      ∧ (s.port.linkUp = false → s.controller.standIn = .returning →
          exec .linkUp s =
            .next
              (sendingStep { s with port := { s.port with linkUp := true }, host := afterLink s true .linkUp }))
      ∧ (s.port.linkUp = true → (s.controller.standIn = .attended ∨ s.controller.standIn = .returning) →
          exec .linkDown s =
            .next { s with port := { s.port with linkUp := false }, host := afterLink s false .linkDown })
      ∧ (s.port.linkUp = true → (s.controller.standIn = .standing ∨ s.controller.standIn = .calling) →
          ∃ t, exec .linkDown s = .next t ∧ t.port = { s.port with linkUp := false }
            ∧ t.wake.record.noted = s.wake.record.noted.join .link
            ∧ (causeEnabled s.wake .link = false →
                t.controller = s.controller ∧ t.host = afterLink s false .linkDown)
            ∧ t.responder = s.responder ∧ t.keeper = s.keeper ∧ t.hold = s.hold ∧ t.counters = s.counters)
      ∧ (∀ tag, s.port.linkUp = true → s.controller.standIn = .arming → s.host.inFlight = some tag →
          ∃ t, exec .linkDown s = .next t ∧ t.port = { s.port with linkUp := false }
            ∧ t.wake.record.noted = s.wake.record.noted.join .link
            ∧ (t.controller.standIn = .standing ∨ t.controller.standIn = .calling)
            ∧ t.host.inFlight = none
            ∧ t.host.reply =
                some
                  { tag := tag,
                    body :=
                      [0, 1, byte s.responder.settledDone, byte s.responder.settledRefused] ++ be32 s.time.toNat })
      ∧ (s.port.linkUp = false → (s.controller.standIn = .standing ∨ s.controller.standIn = .calling) →
          ∃ t new, exec .linkUp s = .next t ∧ t.port.linkUp = true ∧ t.port.txQueue = s.port.txQueue ++ new
            ∧ t.responder.entries =
                s.responder.entries.map (Option.map (fun e =>
                  { e with defence := false, report := e.report.filter (fun r => !r.due) }))
            ∧ t.responder.build = s.responder.build + 1
            ∧ listItemsOf t.responder.build new ++ t.responder.list = announcementList s.responder.entries
            ∧ (8 ≤ t.port.txQueue.length ∨ (t.responder.list = [] ∧ pendingProbes t = []))
            ∧ t.host = afterLink s true .linkUp ∧ t.controller = s.controller ∧ t.wake = s.wake
            ∧ t.counters = s.counters ∧ t.hold = s.hold ∧ t.classifier = s.classifier ∧ t.builder = s.builder)

/-- PORT_RESET (R108, R124, R159) in every state: the receive buffer and the transmit queue are emptied, the link is DOWN,
forgotten deliveries are 0 and every held record is WAITING, the announcement list and the pending defences are
discarded, and the frames lost are counted as the table of R159 states. In ARMING, STANDING and CALLING a QUEUED probe is
PENDING again. With the link UP before, one LINK_CHANGED notice is queued; STANDING and CALLING note LINK besides, and in
ARMING, which ends, the HAND OVER in flight is answered with the LINK_DOWN flag. With the link already DOWN no notice is
queued and no cause recorded. A return that the reset leaves with nothing to deliver ends DRAINED, which is the model's
reading of R21 (assumption 28). -/
def Obligations.PortResetEmptiesPort : Prop :=
  ∀ s : State, ∃ t, exec .portReset s = .next t
    ∧ t.port =
        { s.port with rxBuffer := [], txQueue := [], linkUp := false, sent := s.port.sent ++ [.ready 6] }
    ∧ t.hold =
        { s.hold with
          queue := s.hold.queue.map (fun h => { h with delivery := .waiting }), forgotten := 0 }
    ∧ t.counters =
        ((s.counters.add .receiveRefused s.port.rxBuffer.length).add (.dropped .answer)
            (s.port.txQueue.filter (fun x => x.kind == .answer)).length).add (.dropped .ack)
          (s.port.txQueue.filter (fun x => x.kind == .ack)).length
    ∧ t.responder =
        { s.responder with
          list := [], entries := s.responder.entries.map (Option.map (fun e => { e with defence := false })) }
    ∧ t.keeper =
        (if s.controller.standIn.serving then
          { s.keeper with
            sessions :=
              s.keeper.sessions.map (Option.map (fun x =>
                if x.state = .probing ∧ x.phase = .queued then { x with phase := .pending } else x)) }
        else s.keeper)
    ∧ t.builder = s.builder ∧ t.classifier = s.classifier
    ∧ (s.port.linkUp = false → s.controller.standIn ≠ .returning →
        t.controller = s.controller ∧ t.host = s.host ∧ t.wake = s.wake)
    ∧ (s.port.linkUp = true → s.controller.standIn = .attended →
        t.controller = s.controller ∧ t.host = afterLink s false .portReset ∧ t.wake = s.wake)
    ∧ (s.controller.standIn = .returning → (s.hold.queue ≠ [] ∨ s.classifier.current ≠ none) →
        t.controller = s.controller ∧ t.wake = s.wake
          ∧ t.host = (if s.port.linkUp then afterLink s false .portReset else s.host))
    ∧ (s.controller.standIn = .returning → s.hold.queue = [] → s.classifier.current = none →
        t.controller = { s.controller with standIn := .attended, divert := false, drain := false } ∧ t.wake = s.wake)
    ∧ (s.port.linkUp = true → (s.controller.standIn = .standing ∨ s.controller.standIn = .calling) →
        t.wake.record.noted = s.wake.record.noted.join .link
          ∧ (causeEnabled s.wake .link = false →
              t.controller = s.controller ∧ t.host = afterLink s false .portReset))
    ∧ (∀ tag, s.port.linkUp = true → s.controller.standIn = .arming → s.host.inFlight = some tag →
        t.wake.record.noted = s.wake.record.noted.join .link
          ∧ t.controller.standIn = (if t.wake.record.enabled = 0 then .standing else .calling)
          ∧ t.host.inFlight = none
          ∧ t.host.reply =
              some
                { tag := tag,
                  body :=
                    [0, 1, byte s.responder.settledDone, byte s.responder.settledRefused] ++ be32 s.time.toNat })

/-! The classifier. -/

/-- FRAME_TAKEN (R4, R20, R51, R115, R152): a free classifier takes the oldest frame and sends READY with the room there is
then. In ATTENDED the frame is DISCARDED; in ARMING, STANDING and CALLING its classification begins; in RETURNING it is
held where it fits, with source RETURN and no kept mark, and the sending step follows, READY going out first (assumption
14); otherwise it is DISCARDED and counted as hold refused. The VLAN recorded of a frame too short for one is the model's
(assumption 23). -/
def Obligations.FrameTakenByState : Prop :=
  ∀ (s : State) (f : List Byte) (rest : List (List Byte)),
    s.classifier.current = none → s.port.rxBuffer = f :: rest →
    let port : StationPort :=
      { s.port with rxBuffer := rest, sent := s.port.sent ++ [.ready (6 - rest.length)] }
    (s.controller.standIn = .attended →
        exec .frameTaken s =
          .next
            { s with port := port, counters := (s.counters.add .framesTaken 1).add (.settled .discarded) 1 })
      ∧ (s.controller.standIn.serving = true →
          exec .frameTaken s =
            .next
              { s with
                port := port
                counters := s.counters.add .framesTaken 1
                classifier :=
                  { s.classifier with
                    current :=
                      some
                        { frame := f, step := .length, reached4 := false,
                          superseded :=
                            { entries := [], sessions := [], templates := [], rules := none, policy := none } } } })
      ∧ (s.controller.standIn = .returning → fits s.hold.queue f.length = true →
          let q :=
            s.hold.queue
              ++ [{ arrival := s.time, source := .atReturn, kept := false, vlan := heldVlan f, bytes := f,
                    delivery := .waiting }]
          exec .frameTaken s =
            .next
              (sendingStep
                { s with
                  port := port
                  counters := ((s.counters.add .framesTaken 1).add .displaced 0).add (.settled .held) 1
                  hold := { s.hold with queue := q, level := levelOf s.wake.policy.highMark q } }))
      ∧ (s.controller.standIn = .returning → fits s.hold.queue f.length = false →
          exec .frameTaken s =
            .next
              (checkDrained
                { s with
                  port := port
                  counters := ((s.counters.add .framesTaken 1).add .holdRefused 1).add (.settled .discarded) 1 }))

/-- LENGTH_CHECK, VLAN_CHECK and DESTINATION_CHECK (R53, R56, R57, R58): a frame that passes goes on to the next step and
nothing else changes; one that fails is DISCARDED and counted as filtered and DISCARDED, and nothing else changes but
the end of a return that it may bring (R21). -/
def Obligations.FiltersPassOrDiscard : Prop :=
  ∀ (s : State) (c : Classification) (cmd : Instr) (next : ClassStep) (ok : Bool),
    s.classifier.current = some c →
    ((c.step = .length ∧ cmd = .lengthCheck ∧ next = .vlan ∧ ok = lengthOk c.frame)
      ∨ (c.step = .vlan ∧ cmd = .vlanCheck ∧ next = .destination
          ∧ ok = (linkOfVlan (entriesRead s) (frameVlan c.frame)).isSome)
      ∨ (c.step = .destination ∧ cmd = .destinationCheck ∧ next = .session
          ∧ ok = destinationAdmitted (entriesRead s) c.frame)) →
    (ok = true →
        exec cmd s =
          .next { s with classifier := { s.classifier with current := some { c with step := next } } })
      ∧ (ok = false →
          exec cmd s =
            .next
              (checkDrained
                { s with
                  classifier := { s.classifier with current := none }
                  counters := (s.counters.add .filtered 1).add (.settled .discarded) 1 }))

/-- SESSION_DISPATCH (R59, R101 to R105, R111): a frame of no live session goes on to step 5. In a stand-in, with no edit
since the taking, a session's segment is settled in the session's state: a peer ACK is ABSORBED, counted, and moves the
last heard and next due times, ending a round; a peer probe is ABSORBED too, and answered with one ACK, counted where the
transmit queue takes it; an out-of-window segment is DISCARDED and counted; data is held with the kept mark and makes the
session HEARD_DATA with SESSION_DATA reported, once; a close or reset is held so and makes it CLOSED with SESSION_LOST
reported. Of a segment carried over past the entry to RETURNING (assumption 11) the record stays RETURNED, no cause is
reported, an ACK is dropped, and the state at return takes the change of state; a frame so marked that finds no RETURNED
record goes on to step 5, in a new stand-in too, which is the model's choice (assumption 25). -/
def Obligations.SessionDispatchSettlesSegments : Prop :=
  ∀ (s : State) (c : Classification), s.classifier.current = some c → c.step = .session →
    (c.reached4 = false →
        sessionMatch (entriesRead s) (sessionsRead s) (fun x => x.state.live) c.frame = none →
        exec .sessionDispatch s =
          .next { s with classifier := { s.classifier with current := some { c with step := .responder } } })
      ∧ (c.reached4 = true →
          sessionMatch (entriesRead s) (sessionsRead s) Session.liveAtReturn c.frame = none →
          exec .sessionDispatch s =
            .next { s with classifier := { s.classifier with current := some { c with step := .responder } } })
      ∧ (∀ i x, c.reached4 = false →
          sessionMatch (entriesRead s) (sessionsRead s) (fun x => x.state.live) c.frame = some (i, x) →
          s.controller.standIn.serving = true → nothingSuperseded s →
          let withSession : Session → State := fun y =>
            { s with keeper := { s.keeper with sessions := s.keeper.sessions.set i (some y) } }
          let heard : Session → Session := fun y =>
            match x.state with
            | .ready => { y with nextDue := some (s.time + BitVec.ofNat 32 (x.interval * 1000)) }
            | .probing =>
              { y with
                state := .ready, outstanding := 0, phase := .none, deadline := none,
                nextDue := some (s.time + BitVec.ofNat 32 (x.interval * 1000)) }
            | _ => y
          let ended : Session :=
            { x with lastHeard := some s.time, nextDue := none, outstanding := 0, deadline := none, phase := .none }
          (segmentKind x x.state c.frame = .peerAck →
              exec .sessionDispatch s =
                .next
                  (settled .absorbed
                    (withSession
                      (heard
                        { x with peerAcks := min 4294967295 (x.peerAcks + 1), lastHeard := some s.time }))))
            ∧ (segmentKind x x.state c.frame = .peerProbe → s.port.txQueue.length < 8 →
                exec .sessionDispatch s =
                  .next
                    (settled .absorbed
                      (offered .ack (segmentOf s.responder.entries x x.sndNxt)
                        (withSession
                          (heard
                            { x with
                              peerProbes := min 4294967295 (x.peerProbes + 1), lastHeard := some s.time })))))
            ∧ (segmentKind x x.state c.frame = .peerProbe → 8 ≤ s.port.txQueue.length →
                exec .sessionDispatch s =
                  .next
                    (settled .absorbed
                      (offered .ack (segmentOf s.responder.entries x x.sndNxt)
                        (withSession (heard { x with lastHeard := some s.time })))))
            ∧ (segmentKind x x.state c.frame = .outOfWindow →
                exec .sessionDispatch s =
                  .next
                    (settled .discarded (withSession { x with outOfWindow := min 4294967295 (x.outOfWindow + 1) })))
            ∧ (segmentKind x x.state c.frame = .data → (x.state = .ready ∨ x.state = .probing) →
                ∃ t, exec .sessionDispatch s = .next t
                  ∧ SettledByHold c.frame (.session i) true
                      (some { cause := .sessionData, origin := some i, frame := some c.frame })
                      (fun held =>
                        withSession
                          { ended with
                            state := .heardData
                            dataHeld := if held then min 4294967295 (x.dataHeld + 1) else x.dataHeld })
                      t)
            ∧ (segmentKind x x.state c.frame = .data → x.state = .heardData →
                ∃ t, exec .sessionDispatch s = .next t
                  ∧ SettledByHold c.frame (.session i) true none
                      (fun held =>
                        withSession
                          { x with
                            lastHeard := some s.time
                            dataHeld := if held then min 4294967295 (x.dataHeld + 1) else x.dataHeld })
                      t)
            ∧ ((segmentKind x x.state c.frame = .close ∨ segmentKind x x.state c.frame = .reset) →
                ∃ t, exec .sessionDispatch s = .next t
                  ∧ SettledByHold c.frame (.session i) true
                      (some { cause := .sessionLost, origin := some i, frame := some c.frame })
                      (fun _ => withSession { ended with state := .closed }) t))
      ∧ (∀ i x st, c.reached4 = true →
          sessionMatch (entriesRead s) (sessionsRead s) Session.liveAtReturn c.frame = some (i, x) →
          x.atReturn = some st → (s.controller.standIn = .returning ∨ s.controller.standIn = .attended) →
          nothingSuperseded s →
          let withSession : Session → State := fun y =>
            { s with keeper := { s.keeper with sessions := s.keeper.sessions.set i (some y) } }
          (segmentKind x st c.frame = .peerAck →
              exec .sessionDispatch s =
                .next
                  (checkDrained
                    (settled .absorbed
                      (withSession
                        { x with peerAcks := min 4294967295 (x.peerAcks + 1), lastHeard := some s.time }))))
            ∧ (segmentKind x st c.frame = .peerProbe →
                exec .sessionDispatch s =
                  .next
                    (checkDrained
                      (settled .absorbed
                        { withSession { x with lastHeard := some s.time } with
                          counters := s.counters.add (.dropped .ack) 1 })))
            ∧ (segmentKind x st c.frame = .outOfWindow →
                exec .sessionDispatch s =
                  .next
                    (checkDrained
                      (settled .discarded
                        (withSession { x with outOfWindow := min 4294967295 (x.outOfWindow + 1) }))))
            ∧ (segmentKind x st c.frame = .data →
                ∃ t, exec .sessionDispatch s = .next t
                  ∧ CarriedHold c.frame (.session i) true
                      (fun held =>
                        withSession
                          { x with
                            atReturn := some .heardData
                            dataHeld := if held then min 4294967295 (x.dataHeld + 1) else x.dataHeld })
                      t)
            ∧ ((segmentKind x st c.frame = .close ∨ segmentKind x st c.frame = .reset) →
                ∃ t, exec .sessionDispatch s = .next t
                  ∧ CarriedHold c.frame (.session i) true
                      (fun _ => withSession { x with atReturn := some .closed }) t))

/-- RESPONDER_DISPATCH (R33, R35, R36, R37, R60), with no edit since the taking: a frame of no responder kind goes on to
step 6. A correct ARP request or neighbour solicitation that asks for an entry that answers, and no ARP conflict, is
answered within the entry's budget: the budget count rises, one ANSWER is offered and the frame is ANSWERED. In a stand-in
a free transmit slot takes the answer and the answers-given count rises (past its end: a free value, assumption 4); a
full transmit queue drops it, and so do RETURNING and ATTENDED for a frame carried over (R12, R19). A frame beyond the
budget is DISCARDED and counted as over budget. One that is not correct (a short ARP packet: assumption 22), or that asks
for no such entry, is DISCARDED and changes nothing else. The end of a return may follow (R21). A frame carried past a cut
return into a new stand-in is answered as a frame of it, which is the model's choice (assumption 25). -/
def Obligations.ResponderDispatchAnswers : Prop :=
  ∀ (s : State) (c : Classification), s.classifier.current = some c → c.step = .responder →
    (responderKind c.frame = none →
        exec .responderDispatch s =
          .next { s with classifier := { s.classifier with current := some { c with step := .rule } } })
      ∧ (∀ i e answer,
          ((responderKind c.frame = some .arp ∧ arpOk (layerData c.frame) = true
              ∧ arpConflict (entriesRead s) c.frame = none ∧ arpTarget (entriesRead s) c.frame = some (i, e)
              ∧ answer = arpReply c.frame (linkMac s.responder.entries e) e.addr)
            ∨ ∃ ip, responderKind c.frame = some .solicitation ∧ readIp c.frame = some ip ∧ neighbourOk ip = true
                ∧ solicitedEntry (entriesRead s) c.frame ip = some (i, e)
                ∧ answer = solicitedAnswer c.frame ip.src (linkMac s.responder.entries e) e.addr) →
          nothingSuperseded s →
          (e.budget < s.wake.policy.answerLimit → s.controller.standIn.serving = true → s.port.txQueue.length < 8 →
              ∃ y n, (e.answers ≠ BitVec.allOnes 32 → y = e.answers + 1 ∧ n = s.freeCount)
                ∧ exec .responderDispatch s =
                    .next
                      (settled .answered
                        (offered .answer answer
                          { s with
                            responder :=
                              { s.responder with
                                entries :=
                                  s.responder.entries.set i (some { e with budget := e.budget + 1, answers := y }) }
                            freeCount := n })))
            ∧ (e.budget < s.wake.policy.answerLimit →
                (s.controller.standIn.serving = false ∨ 8 ≤ s.port.txQueue.length) →
                exec .responderDispatch s =
                  .next
                    (checkDrained
                      (settled .answered
                        (offered .answer answer
                          { s with
                            responder :=
                              { s.responder with
                                entries := s.responder.entries.set i (some { e with budget := e.budget + 1 }) } }))))
            ∧ (s.wake.policy.answerLimit ≤ e.budget →
                exec .responderDispatch s =
                  .next
                    (checkDrained (settled .discarded { s with counters := s.counters.add .overBudget 1 }))))
      ∧ (((responderKind c.frame = some .arp
              ∧ (arpOk (layerData c.frame) = false
                ∨ (arpConflict (entriesRead s) c.frame = none ∧ arpTarget (entriesRead s) c.frame = none)))
            ∨ ∃ ip, readIp c.frame = some ip
                ∧ ((responderKind c.frame = some .solicitation
                    ∧ (neighbourOk ip = false ∨ solicitedEntry (entriesRead s) c.frame ip = none))
                  ∨ (responderKind c.frame = some .advertisement
                    ∧ (neighbourOk ip = false ∨ advertConflict (entriesRead s) c.frame ip = none)))) →
          exec .responderDispatch s = .next (checkDrained (settled .discarded s)))

/-- RESPONDER_DISPATCH of a conflicting ARP packet or neighbour advertisement, with no edit since the taking (R32, R38,
R39, R40, R106): the conflict is counted at the entry and the device, and the frame is DISCARDED. In a stand-in it is noted;
an entry that defends and has not defended within 10 s is defended by one announcement, or has its defence pending; any
other becomes CEDED and its item leaves the announcement list, each live session of the entry is LOST, which is noted,
no other session changes, and ARMING may end by it. In RETURNING and ATTENDED, for a frame carried over (R19, R22, R27), no
cause is recorded and no session changes, the defence is dropped, counted under ANNOUNCE where the link is UP and none is
pending (assumption 16), and the end of the return may follow (R21). A frame carried past a cut return into a new stand-in
is taken as a frame of it, which is the model's choice (assumption 25). -/
def Obligations.ConflictsDefendedOrCeded : Prop :=
  ∀ (s : State) (c : Classification) (i : Nat) (e : IdentityEntry),
    s.classifier.current = some c → c.step = .responder →
    ((responderKind c.frame = some .arp ∧ arpOk (layerData c.frame) = true
        ∧ arpConflict (entriesRead s) c.frame = some (i, e))
      ∨ ∃ ip, responderKind c.frame = some .advertisement ∧ readIp c.frame = some ip ∧ neighbourOk ip = true
          ∧ advertConflict (entriesRead s) c.frame ip = some (i, e)) →
    nothingSuperseded s →
    let may : Prop := e.defend = true ∧ ∀ last, e.lastDefence = some last → 10000 ≤ elapsed s.time last
    let mayNot : Prop := e.defend = false ∨ ∃ last, e.lastDefence = some last ∧ elapsed s.time last < 10000
    let defending : IdentityEntry := { e with conflicts := min 255 (e.conflicts + 1), lastDefence := some s.time }
    let ceding : IdentityEntry :=
      { e with conflicts := min 255 (e.conflicts + 1), state := .ceded, defence := false }
    (s.controller.standIn.serving = true →
      ∃ t, exec .responderDispatch s = .next t
        ∧ t.counters = (s.counters.add .conflicts 1).add (.settled .discarded) 1
        ∧ t.wake.record.noted.has .conflict = true ∧ t.classifier = { s.classifier with current := none }
        ∧ t.hold = s.hold ∧ t.builder = s.builder
        ∧ (may →
            t.keeper = s.keeper ∧ t.responder.list = s.responder.list
              ∧ t.wake.record.noted = s.wake.record.noted.join .conflict
              ∧ (s.port.linkUp = true → e.defence = false → s.port.txQueue.length < 8 →
                  t.responder.entries = s.responder.entries.set i (some defending)
                    ∧ t.port.txQueue =
                        s.port.txQueue
                          ++ [{ kind := .announce, owner := .defence i,
                                frame := announcementFrame s.responder.entries e }])
              ∧ ((s.port.linkUp = false ∨ e.defence = true ∨ 8 ≤ s.port.txQueue.length) →
                  t.responder.entries = s.responder.entries.set i (some { defending with defence := true })
                    ∧ t.port = s.port))
        ∧ (mayNot →
            t.responder.entries = s.responder.entries.set i (some ceding)
              ∧ t.responder.list = s.responder.list.filter (fun j => j != i)
              ∧ t.port = s.port ∧ t.keeper = { s.keeper with sessions := lostWith i s.keeper.sessions }
              ∧ ((∃ x, some x ∈ s.keeper.sessions ∧ x.localIndex = i ∧ x.state.live = true) →
                  t.wake.record.noted.has .sessionLost = true)
              ∧ ArmingAfterRemoval s t))
      ∧ (s.controller.standIn.serving = false →
          (may →
              exec .responderDispatch s =
                .next
                  (checkDrained
                    (settled .discarded
                      { s with
                        responder := { s.responder with entries := s.responder.entries.set i (some defending) }
                        counters :=
                          if s.port.linkUp = true ∧ e.defence = false then
                            (s.counters.add .conflicts 1).add (.dropped .announce) 1
                          else s.counters.add .conflicts 1 })))
            ∧ (mayNot →
                exec .responderDispatch s =
                  .next
                    (checkDrained
                      (settled .discarded
                        { s with
                          responder :=
                            { s.responder with
                              entries := s.responder.entries.set i (some ceding)
                              list := s.responder.list.filter (fun j => j != i) }
                          counters := s.counters.add .conflicts 1 }))))

/-- RESPONDER_DISPATCH of a membership query (R33, R43, R44, R52): one that fails its check is DISCARDED and changes nothing
else; a correct one is ABSORBED. In a stand-in it gives each entry it concerns, as the entries stood at the frame's taking, a
deadline with its form; where the entry already has one, the earlier of the two stands with its form, and a report that is
due stays due. An entry it does not concern keeps its own, and so does one edited since the taking (assumption 12), which
there is in a stand-in only for a frame carried past a cut return into it (assumption 25). In RETURNING and ATTENDED, for
a frame carried over, it schedules no report (R27). The end of a return may follow (R21). The code of an MLD query is not
checked (assumption 26). -/
def Obligations.QueriesScheduleReports : Prop :=
  ∀ (s : State) (c : Classification) (ip : IpFields) (kind : ResponderKind) (good : Bool) (q : List (Nat × Nat))
    (form : ReportForm),
    s.classifier.current = some c → c.step = .responder →
    responderKind c.frame = some kind → readIp c.frame = some ip →
    ((kind = .igmpQuery ∧ good = igmpOk ip
        ∧ q = queriedEntries (entriesRead s) .group4 (frameVlan c.frame) (slice ip.payload 4 4)
            (igmpResponse (at1 ip.payload 1))
        ∧ form = (if ip.payload.length = 8 then .short else .extended))
      ∨ (kind = .mldQuery ∧ good = mldOk ip
          ∧ q = queriedEntries (entriesRead s) .group6 (frameVlan c.frame) (slice ip.payload 8 16)
              (mldResponse (at2 ip.payload 4))
          ∧ form = (if ip.payload.length = 24 then .short else .extended))) →
    (good = true → s.controller.standIn.serving = true →
        ∃ t, exec .responderDispatch s = .next t
          ∧ t.counters = s.counters.add (.settled .absorbed) 1 ∧ t.classifier.current = none
          ∧ t.port = s.port ∧ t.wake = s.wake ∧ t.keeper = s.keeper ∧ t.hold = s.hold
          ∧ (∀ i d e, (i, d) ∈ q → isSuperseded (superseded s).entries i = false →
              lookup s.responder.entries i = some e →
              let new : IdentityEntry :=
                { e with report := some { start := s.time, length := d, form := form, due := false } }
              (e.report = none → lookup t.responder.entries i = some new)
                ∧ (∀ r, e.report = some r → r.due = false → d < r.length - elapsed s.time r.start →
                    lookup t.responder.entries i = some new)
                ∧ (∀ r, e.report = some r → (r.due = true ∨ r.length - elapsed s.time r.start ≤ d) →
                    lookup t.responder.entries i = some e))
          ∧ (∀ i, ((∀ d, (i, d) ∉ q) ∨ isSuperseded (superseded s).entries i = true) →
              lookup t.responder.entries i = lookup s.responder.entries i))
      ∧ (good = true → s.controller.standIn.serving = false →
          exec .responderDispatch s = .next (checkDrained (settled .absorbed s)))
      ∧ (good = false → exec .responderDispatch s = .next (checkDrained (settled .discarded s)))

/-- RULE_MATCH and DEFAULT_ACTION, with no edit since the taking (R61, R68, R71, R73, R74): a frame that no rule matches
goes on to step 7. The first rule that matches counts one hit while its hits are below its limit and one overflow
otherwise. DISCARD and overflow DISCARD discard; WAKE and overflow WAKE discard and in a stand-in report RULE with the
rule's position and the frame; overflow HOLD holds with source RULE of the position. The default action DISCARD discards,
HOLD holds with source DEFAULT. In RETURNING and ATTENDED, for a frame carried over, no RULE is reported, a hold is made
under DROP_NEWEST in RETURNING and refused in ATTENDED (R19, R22, R77), and the end of the return may follow (R21). A
frame carried past a cut return into a new stand-in is settled as a frame of it, which is the model's choice (assumption
25). -/
def Obligations.RulesAndDefaultSettleFrames : Prop :=
  ∀ (s : State) (c : Classification), s.classifier.current = some c → nothingSuperseded s →
    (c.step = .rule → firstMatch s.responder.entries (rulesRead s) c.frame = none →
        exec .ruleMatch s =
          .next { s with classifier := { s.classifier with current := some { c with step := .default } } })
      ∧ (∀ r n, c.step = .rule →
          firstMatch s.responder.entries (rulesRead s) c.frame = some ((r, some n), n) →
          let report : Report := { cause := .rule, origin := some n, frame := some c.frame }
          let hit : State :=
            { s with
              classifier :=
                { s.classifier with rules := s.classifier.rules.modify n (fun r => { r with hits := r.hits + 1 }) } }
          let beyond : State :=
            { s with
              classifier :=
                { s.classifier with
                  rules :=
                    s.classifier.rules.modify n
                      (fun r => { r with overflows := min 4294967295 (r.overflows + 1) }) } }
          (∀ u, ((r.hits < r.limit ∧ r.action = .discard ∧ u = hit)
                ∨ (r.limit ≤ r.hits ∧ r.overflow = .discard ∧ u = beyond)) →
              exec .ruleMatch s = .next (checkDrained (settled .discarded u)))
            ∧ (∀ u, ((r.hits < r.limit ∧ r.action = .wake ∧ u = hit)
                  ∨ (r.limit ≤ r.hits ∧ r.overflow = .wake ∧ u = beyond)) →
                (s.controller.standIn.serving = true →
                    exec .ruleMatch s = .next (reportCause report (settled .discarded u)))
                  ∧ (s.controller.standIn.serving = false →
                      exec .ruleMatch s = .next (checkDrained (settled .discarded u))))
            ∧ (r.limit ≤ r.hits → r.overflow = .hold →
                ∃ t, exec .ruleMatch s = .next t ∧ HoldSettles c.frame (.rule n) false none (fun _ => beyond) t))
      ∧ (c.step = .default → s.wake.policy.defaultAction = .discard →
          exec .defaultAction s = .next (checkDrained (settled .discarded s)))
      ∧ (c.step = .default → s.wake.policy.defaultAction = .hold →
          ∃ t, exec .defaultAction s = .next t ∧ HoldSettles c.frame .byDefault false none (fun _ => s) t)

/-- RULE_MATCH, with no edit since the taking, with a rule within its budget that holds or answers (R68 to R70, R73, R89,
R90, R115 to R117, R120, R153): HOLD holds with source RULE of the position, in a stand-in under the overflow policy,
displacing what DROP_OLDEST displaces; HOLD_WAKE does the same and in a stand-in reports RULE with the position and the
frame; an echo request that qualifies, or a template that can be built, which is counted, is answered by one ANSWER, which
a full transmit queue drops; one that does not qualify or cannot be built makes the frame DISCARDED. In RETURNING and
ATTENDED, for a frame carried over, the answer is dropped and counted under ANSWER (R12), no RULE is reported, a hold is
made under DROP_NEWEST in RETURNING and refused in ATTENDED (R19, R22, R77), and the end of the return may follow (R21). A
frame carried past a cut return into a new stand-in is settled as a frame of it, which is the model's choice (assumption
25). -/
def Obligations.RuleActionsHoldAndAnswer : Prop :=
  ∀ (s : State) (c : Classification) (r : Rule) (n : Nat),
    s.classifier.current = some c → c.step = .rule → nothingSuperseded s →
    firstMatch s.responder.entries (rulesRead s) c.frame = some ((r, some n), n) → r.hits < r.limit →
    let mac := frameLinkMac s.responder.entries c.frame
    let hit : State :=
      { s with
        classifier :=
          { s.classifier with rules := s.classifier.rules.modify n (fun r => { r with hits := r.hits + 1 }) } }
    (r.action = .hold →
        ∃ t, exec .ruleMatch s = .next t ∧ HoldSettles c.frame (.rule n) false none (fun _ => hit) t)
      ∧ (r.action = .holdWake →
          ∃ t, exec .ruleMatch s = .next t
            ∧ HoldSettles c.frame (.rule n) false
                (some { cause := .rule, origin := some n, frame := some c.frame }) (fun _ => hit) t)
      ∧ (∀ ip, r.action = .echo → echoFields s.responder.entries c.frame = some ip →
          exec .ruleMatch s =
            .next (checkDrained (settled .answered (offered .answer (echoReply c.frame ip mac) hit))))
      ∧ (r.action = .echo → echoFields s.responder.entries c.frame = none →
          exec .ruleMatch s = .next (checkDrained (settled .discarded hit)))
      ∧ (∀ k x a, r.action = .template k → lookup s.builder.templates k = some x →
          buildTemplate x c.frame mac = some a →
          exec .ruleMatch s =
            .next
              (checkDrained
                (settled .answered
                  (offered .answer a
                    { hit with
                      builder :=
                        { templates :=
                            s.builder.templates.set k
                              (some { x with built := min 4294967295 (x.built + 1) }) } }))))
      ∧ (∀ k x, r.action = .template k → lookup s.builder.templates k = some x →
          buildTemplate x c.frame mac = none →
          exec .ruleMatch s =
            .next
              (checkDrained
                (settled .discarded
                  { hit with
                    builder :=
                      { templates :=
                          s.builder.templates.set k (some { x with failed := min 4294967295 (x.failed + 1) }) }
                    counters := s.counters.add .templateShort 1 })))

/-! Timers. -/

/-- PERIOD_EXPIRY, LEASE_MARGIN_REACHED and LEASE_DEADLINE where they are ready (R32, R37, R40, R41, R42, R72, R106): the
hit counts of the class are 0, for P1 the budget counts too, and the timer runs from now; the entry's mark is set and
LEASE noted; the entry is EXPIRED without a pending defence. An entry that was ACTIVE has its unoffered item taken off the
announcement list; in a stand-in each live session of it is LOST, which is noted, no other session changes, and ARMING may
end by it. An entry that was CEDED changes nothing else. -/
def Obligations.PeriodsAndLeases : Prop :=
  ∀ (s : State) (i : Nat) (e : IdentityEntry),
    (∀ cls, periodLength cls ≤ elapsed s.time (s.classifier.periods.get cls) →
        ∃ t, exec (.periodExpiry cls) s = .next t
          ∧ t.classifier =
              { s.classifier with
                rules := s.classifier.rules.map (fun r => if r.period = cls then { r with hits := 0 } else r)
                periods := s.classifier.periods.restart cls s.time }
          ∧ t.responder =
              (if cls = .p1 then
                { s.responder with
                  entries := s.responder.entries.map (Option.map (fun e => { e with budget := 0 })) }
              else s.responder)
          ∧ t = { s with classifier := t.classifier, responder := t.responder })
      ∧ (lookup s.responder.entries i = some e → s.controller.standIn.serving = true → e.isAddress = true →
          e.leaseMark = false → e.marginReached s.time s.wake.policy.leaseMargin = true →
          ∃ t, exec (.leaseMarginReached i) s = .next t
            ∧ lookup t.responder.entries i = some { e with leaseMark := true }
            ∧ t.wake.record.noted = s.wake.record.noted.join .lease
            ∧ t.keeper = s.keeper ∧ t.port = s.port ∧ t.hold = s.hold ∧ t.counters = s.counters)
      ∧ (lookup s.responder.entries i = some e → e.isAddress = true → e.state ≠ .expired →
          e.deadlinePassed s.time = true →
          ∃ t, exec (.leaseDeadline i) s = .next t
            ∧ t.responder.entries =
                s.responder.entries.set i (some { e with state := .expired, defence := false })
            ∧ t.port = s.port ∧ t.hold = s.hold ∧ t.counters = s.counters ∧ t.classifier = s.classifier
            ∧ t.builder = s.builder
            ∧ (e.state = .active → t.responder.list = s.responder.list.filter (fun j => j != i))
            ∧ ((e.state = .ceded ∨ s.controller.standIn.serving = false) →
                t.keeper = s.keeper ∧ t.wake = s.wake ∧ t.controller = s.controller ∧ t.host = s.host)
            ∧ (e.state = .ceded → t.responder.list = s.responder.list)
            ∧ (s.controller.standIn.serving = true → e.state = .active →
                t.keeper = { s.keeper with sessions := lostWith i s.keeper.sessions }
                  ∧ ((∃ x, some x ∈ s.keeper.sessions ∧ x.localIndex = i ∧ x.state.live = true) →
                      t.wake.record.noted = s.wake.record.noted.join .sessionLost)
                  ∧ ((¬ ∃ x, some x ∈ s.keeper.sessions ∧ x.localIndex = i ∧ x.state.live = true) →
                      t.wake.record.noted = s.wake.record.noted)
                  ∧ ArmingAfterRemoval s t))

/-- REPORT_DEADLINE, DUE_EXPIRY and PROBE_TIMER_EXPIRY in a stand-in where they are ready (R45, R97, R99, R100, R107): the
report is offered and its deadline absent, or it waits as due; the record is PROBING with one probe outstanding, QUEUED
where the link is UP and a slot is free and PENDING otherwise; a probe timer that expires with the link UP makes the next
probe, which raises the probes outstanding and is queued where a slot is free and PENDING otherwise, or loses the session
at the limit; with the link DOWN it makes its probe PENDING again uncounted. -/
def Obligations.ReportsAndProbes : Prop :=
  ∀ (s : State) (i : Nat), s.controller.standIn.serving = true →
    (∀ e r, lookup s.responder.entries i = some e → e.report = some r → r.reached s.time = true →
        (s.port.linkUp = true → s.port.txQueue.length < 8 →
            ∃ t, exec (.reportDeadline i) s = .next t
              ∧ lookup t.responder.entries i = some { e with report := none }
              ∧ t.port.txQueue =
                  s.port.txQueue
                    ++ [{ kind := .report, owner := .dueReport i,
                          frame := reportFrame s.responder.entries e r.form }]
              ∧ t.counters = s.counters)
          ∧ ((s.port.linkUp = false ∨ 8 ≤ s.port.txQueue.length) →
              ∃ t, exec (.reportDeadline i) s = .next t
                ∧ lookup t.responder.entries i = some { e with report := some { r with due := true } }
                ∧ t.port = s.port ∧ t.counters = s.counters))
      ∧ (∀ x, lookup s.keeper.sessions i = some x → x.dueReached s.time = true →
          (s.port.linkUp = true → s.port.txQueue.length < 8 →
              ∃ t, exec (.dueExpiry i) s = .next t
                ∧ lookup t.keeper.sessions i =
                    some
                      { x with
                        state := .probing, nextDue := none, outstanding := 1, deadline := none, phase := .queued,
                        probeId := s.keeper.nextProbe }
                ∧ t.port.txQueue =
                    s.port.txQueue
                      ++ [{ kind := .probe, owner := .probe i s.keeper.nextProbe,
                            frame := segmentOf s.responder.entries x (x.sndNxt - 1) }])
            ∧ ((s.port.linkUp = false ∨ 8 ≤ s.port.txQueue.length) →
                ∃ t, exec (.dueExpiry i) s = .next t
                  ∧ lookup t.keeper.sessions i =
                      some
                        { x with
                          state := .probing, nextDue := none, outstanding := 1, deadline := none, phase := .pending }
                  ∧ t.port = s.port))
      ∧ (∀ x, lookup s.keeper.sessions i = some x → x.probeTimerReached s.time = true →
          (s.port.linkUp = false →
              ∃ t, exec (.probeTimerExpiry i) s = .next t
                ∧ lookup t.keeper.sessions i = some { x with deadline := none, phase := .pending }
                ∧ t.wake = s.wake ∧ t.port = s.port)
            ∧ (s.port.linkUp = true → x.outstanding < x.limit → s.port.txQueue.length < 8 →
                ∃ t, exec (.probeTimerExpiry i) s = .next t
                  ∧ lookup t.keeper.sessions i =
                      some
                        { x with
                          deadline := none, outstanding := x.outstanding + 1, phase := .queued,
                          probeId := s.keeper.nextProbe }
                  ∧ t.port.txQueue =
                      s.port.txQueue
                        ++ [{ kind := .probe, owner := .probe i s.keeper.nextProbe,
                              frame := segmentOf s.responder.entries x (x.sndNxt - 1) }]
                  ∧ t.counters = s.counters ∧ t.wake = s.wake)
            ∧ (s.port.linkUp = true → x.outstanding < x.limit → 8 ≤ s.port.txQueue.length →
                ∃ t, exec (.probeTimerExpiry i) s = .next t
                  ∧ lookup t.keeper.sessions i =
                      some { x with deadline := none, outstanding := x.outstanding + 1, phase := .pending }
                  ∧ t.counters = s.counters ∧ t.wake = s.wake ∧ t.port = s.port)
            ∧ (s.port.linkUp = true → x.limit ≤ x.outstanding →
                ∃ t, exec (.probeTimerExpiry i) s = .next t
                  ∧ lookup t.keeper.sessions i =
                      some { x with state := .lost, nextDue := none, deadline := none, phase := .none }
                  ∧ t.wake.record.noted = s.wake.record.noted.join .sessionLost ∧ t.port = s.port))

/-- WAKE_RESPONSE_EXPIRY, RETRY_GAP_EXPIRY and CLAIM_WINDOW_EXPIRY where they are ready (R14, R15, R144, R145, R147):
WAKEREQ falls and the 1 s gap starts; at the gap's end a new attempt is made while attempts are at most the retry
limit, else the outcome is LOST and the state STANDING for GAVE_UP; at the window's end the device returns the machine
with outcome SELF_RETURN: every session becomes RETURNED (R109), the announcement list, the pending defences and the
reports due and waiting are abandoned (R17, R45, R50), and a STATE_CHANGED notice tells each change of the state (R3). -/
def Obligations.CallingSequenceTimers : Prop :=
  ∀ (s : State) (tm : Timer),
    tm.length ≤ elapsed s.time tm.start →
    (s.controller.standIn = .calling → s.wake.phase = .asserting → s.wake.response = some tm →
        exec .wakeResponseExpiry s =
          .next
            { s with
              wake :=
                { s.wake with
                  wakereq := false, response := none, gap := some { start := s.time, length := 1000 },
                  phase := .gap } })
      ∧ (s.controller.standIn = .calling → s.wake.phase = .gap → s.wake.gap = some tm →
          s.wake.record.attempts ≤ s.wake.policy.retries →
          exec .retryGapExpiry s =
            .next
              { s with
                wake :=
                  { s.wake with
                    record := { s.wake.record with attempts := min 8 (s.wake.record.attempts + 1) }, wakereq := true,
                    response := some { start := s.time, length := s.wake.policy.wakeResponse * 1000 }, gap := none,
                    claim := none, phase := .asserting } })
      ∧ (s.controller.standIn = .calling → s.wake.phase = .gap → s.wake.gap = some tm →
          s.wake.policy.retries < s.wake.record.attempts →
          exec .retryGapExpiry s =
            .next
              { s with
                wake :=
                  { s.wake with
                    record := { s.wake.record with outcome := .lost }, wakereq := false, gap := none, phase := .none }
                controller := { s.controller with standIn := .standing, divert := true }
                host := afterChange s .standing .gaveUp })
      ∧ ((s.controller.standIn = .standing ∨ s.controller.standIn = .calling) → s.wake.phase = .claim →
          s.wake.claim = some tm →
          ∃ t, exec .claimWindowExpiry s = .next t
            ∧ t.wake =
                { s.wake with
                  record := { s.wake.record with outcome := .selfReturn }, phase := .none, response := none,
                  gap := none, claim := none, wakereq := false }
            ∧ t.keeper = { s.keeper with sessions := allReturned s.keeper.sessions }
            ∧ t.responder = abandoned s.responder ∧ t.host = afterChanges (returnChanges .selfReturn s) s
            ∧ (t.controller.standIn =
                if s.hold.queue = [] ∧ s.port.rxBuffer = [] ∧ s.classifier.current = none then .attended
                else .returning)
            ∧ t.counters = s.counters ∧ t.port.txQueue = s.port.txQueue)

end
end

