-- ==== Sys2Proof/Laws/Ops.lean ====
section
/-! SUPPORT. What each shared operation leaves as it was: one lemma per operation, cited in place of its definition. -/

namespace Sys2Proof.Machine

open Sys2Proof

/-- count changes only: counters. -/
@[simp] theorem count_keeps (c : Counter) (n : Nat) (s : State) :
    (count c n s).time = s.time ∧ (count c n s).controller = s.controller ∧
    (count c n s).responder = s.responder ∧ (count c n s).classifier = s.classifier ∧
    (count c n s).builder = s.builder ∧ (count c n s).keeper = s.keeper ∧ (count c n s).hold = s.hold ∧
    (count c n s).wake = s.wake ∧ (count c n s).port = s.port ∧ (count c n s).host = s.host ∧
    (count c n s).freeCount = s.freeCount ∧ (count c n s).pending = s.pending := by
  simp [count]

/-- queueNotice changes only: host. -/
@[simp] theorem queueNotice_keeps (n : Notice) (s : State) :
    (queueNotice n s).time = s.time ∧ (queueNotice n s).controller = s.controller ∧
    (queueNotice n s).responder = s.responder ∧ (queueNotice n s).classifier = s.classifier ∧
    (queueNotice n s).builder = s.builder ∧ (queueNotice n s).keeper = s.keeper ∧
    (queueNotice n s).hold = s.hold ∧ (queueNotice n s).wake = s.wake ∧ (queueNotice n s).port = s.port ∧
    (queueNotice n s).counters = s.counters ∧ (queueNotice n s).freeCount = s.freeCount ∧
    (queueNotice n s).pending = s.pending := by
  unfold queueNotice; dsimp only; (repeat' split) <;> simp

/-- produceReply changes only: host. -/
@[simp] theorem produceReply_keeps (tag : Byte) (body : List Byte) (s : State) :
    (produceReply tag body s).time = s.time ∧ (produceReply tag body s).controller = s.controller ∧
    (produceReply tag body s).responder = s.responder ∧ (produceReply tag body s).classifier = s.classifier ∧
    (produceReply tag body s).builder = s.builder ∧ (produceReply tag body s).keeper = s.keeper ∧
    (produceReply tag body s).hold = s.hold ∧ (produceReply tag body s).wake = s.wake ∧
    (produceReply tag body s).port = s.port ∧ (produceReply tag body s).counters = s.counters ∧
    (produceReply tag body s).freeCount = s.freeCount ∧ (produceReply tag body s).pending = s.pending := by
  simp [produceReply]

/-- changeState changes only: controller host. -/
@[simp] theorem changeState_keeps (new : StandIn) (reason : Reason) (s : State) :
    (changeState new reason s).time = s.time ∧ (changeState new reason s).responder = s.responder ∧
    (changeState new reason s).classifier = s.classifier ∧ (changeState new reason s).builder = s.builder ∧
    (changeState new reason s).keeper = s.keeper ∧ (changeState new reason s).hold = s.hold ∧
    (changeState new reason s).wake = s.wake ∧ (changeState new reason s).port = s.port ∧
    (changeState new reason s).counters = s.counters ∧ (changeState new reason s).freeCount = s.freeCount ∧
    (changeState new reason s).pending = s.pending := by
  simp [changeState]

/-- endReturn changes only: controller host. -/
@[simp] theorem endReturn_keeps (reason : Reason) (s : State) :
    (endReturn reason s).time = s.time ∧ (endReturn reason s).responder = s.responder ∧
    (endReturn reason s).classifier = s.classifier ∧ (endReturn reason s).builder = s.builder ∧
    (endReturn reason s).keeper = s.keeper ∧ (endReturn reason s).hold = s.hold ∧
    (endReturn reason s).wake = s.wake ∧ (endReturn reason s).port = s.port ∧
    (endReturn reason s).counters = s.counters ∧ (endReturn reason s).freeCount = s.freeCount ∧
    (endReturn reason s).pending = s.pending := by
  simp [endReturn]

/-- checkDrained changes only: controller host. -/
@[simp] theorem checkDrained_keeps (s : State) :
    (checkDrained s).time = s.time ∧ (checkDrained s).responder = s.responder ∧
    (checkDrained s).classifier = s.classifier ∧ (checkDrained s).builder = s.builder ∧
    (checkDrained s).keeper = s.keeper ∧ (checkDrained s).hold = s.hold ∧ (checkDrained s).wake = s.wake ∧
    (checkDrained s).port = s.port ∧ (checkDrained s).counters = s.counters ∧
    (checkDrained s).freeCount = s.freeCount ∧ (checkDrained s).pending = s.pending := by
  unfold checkDrained; (repeat' split) <;> simp

/-- sendRecord changes only: port. -/
@[simp] theorem sendRecord_keeps (r : StationOut) (s : State) :
    (sendRecord r s).time = s.time ∧ (sendRecord r s).controller = s.controller ∧
    (sendRecord r s).responder = s.responder ∧ (sendRecord r s).classifier = s.classifier ∧
    (sendRecord r s).builder = s.builder ∧ (sendRecord r s).keeper = s.keeper ∧
    (sendRecord r s).hold = s.hold ∧ (sendRecord r s).wake = s.wake ∧ (sendRecord r s).host = s.host ∧
    (sendRecord r s).counters = s.counters ∧ (sendRecord r s).freeCount = s.freeCount ∧
    (sendRecord r s).pending = s.pending := by
  simp [sendRecord]

/-- sendReady changes only: port. -/
@[simp] theorem sendReady_keeps (s : State) :
    (sendReady s).time = s.time ∧ (sendReady s).controller = s.controller ∧
    (sendReady s).responder = s.responder ∧ (sendReady s).classifier = s.classifier ∧
    (sendReady s).builder = s.builder ∧ (sendReady s).keeper = s.keeper ∧ (sendReady s).hold = s.hold ∧
    (sendReady s).wake = s.wake ∧ (sendReady s).host = s.host ∧ (sendReady s).counters = s.counters ∧
    (sendReady s).freeCount = s.freeCount ∧ (sendReady s).pending = s.pending := by
  simp [sendReady]

/-- offerTx changes only: port counters. -/
@[simp] theorem offerTx_keeps (kind : TxKind) (owner : TxOwner) (frame : List Byte) (s : State) :
    (offerTx kind owner frame s).time = s.time ∧ (offerTx kind owner frame s).controller = s.controller ∧
    (offerTx kind owner frame s).responder = s.responder ∧
    (offerTx kind owner frame s).classifier = s.classifier ∧ (offerTx kind owner frame s).builder = s.builder ∧
    (offerTx kind owner frame s).keeper = s.keeper ∧ (offerTx kind owner frame s).hold = s.hold ∧
    (offerTx kind owner frame s).wake = s.wake ∧ (offerTx kind owner frame s).host = s.host ∧
    (offerTx kind owner frame s).freeCount = s.freeCount ∧
    (offerTx kind owner frame s).pending = s.pending := by
  unfold offerTx; dsimp only; (repeat' split) <;> simp

/-- startAttempt changes only: wake. -/
@[simp] theorem startAttempt_keeps (s : State) :
    (startAttempt s).time = s.time ∧ (startAttempt s).controller = s.controller ∧
    (startAttempt s).responder = s.responder ∧ (startAttempt s).classifier = s.classifier ∧
    (startAttempt s).builder = s.builder ∧ (startAttempt s).keeper = s.keeper ∧
    (startAttempt s).hold = s.hold ∧ (startAttempt s).port = s.port ∧ (startAttempt s).host = s.host ∧
    (startAttempt s).counters = s.counters ∧ (startAttempt s).freeCount = s.freeCount ∧
    (startAttempt s).pending = s.pending := by
  simp [startAttempt]

/-- startClaim changes only: wake. -/
@[simp] theorem startClaim_keeps (s : State) :
    (startClaim s).time = s.time ∧ (startClaim s).controller = s.controller ∧
    (startClaim s).responder = s.responder ∧ (startClaim s).classifier = s.classifier ∧
    (startClaim s).builder = s.builder ∧ (startClaim s).keeper = s.keeper ∧ (startClaim s).hold = s.hold ∧
    (startClaim s).port = s.port ∧ (startClaim s).host = s.host ∧ (startClaim s).counters = s.counters ∧
    (startClaim s).freeCount = s.freeCount ∧ (startClaim s).pending = s.pending := by
  simp [startClaim]

/-- beginCalling changes only: wake. -/
@[simp] theorem beginCalling_keeps (s : State) :
    (beginCalling s).time = s.time ∧ (beginCalling s).controller = s.controller ∧
    (beginCalling s).responder = s.responder ∧ (beginCalling s).classifier = s.classifier ∧
    (beginCalling s).builder = s.builder ∧ (beginCalling s).keeper = s.keeper ∧
    (beginCalling s).hold = s.hold ∧ (beginCalling s).port = s.port ∧ (beginCalling s).host = s.host ∧
    (beginCalling s).counters = s.counters ∧ (beginCalling s).freeCount = s.freeCount ∧
    (beginCalling s).pending = s.pending := by
  unfold beginCalling; dsimp only; (repeat' split) <;> simp

/-- enterCalling changes only: controller wake host. -/
@[simp] theorem enterCalling_keeps (s : State) :
    (enterCalling s).time = s.time ∧ (enterCalling s).responder = s.responder ∧
    (enterCalling s).classifier = s.classifier ∧ (enterCalling s).builder = s.builder ∧
    (enterCalling s).keeper = s.keeper ∧ (enterCalling s).hold = s.hold ∧ (enterCalling s).port = s.port ∧
    (enterCalling s).counters = s.counters ∧ (enterCalling s).freeCount = s.freeCount ∧
    (enterCalling s).pending = s.pending := by
  simp [enterCalling]

/-- reportCause changes only: controller wake host. -/
@[simp] theorem reportCause_keeps (r : Report) (s : State) :
    (reportCause r s).time = s.time ∧ (reportCause r s).responder = s.responder ∧
    (reportCause r s).classifier = s.classifier ∧ (reportCause r s).builder = s.builder ∧
    (reportCause r s).keeper = s.keeper ∧ (reportCause r s).hold = s.hold ∧ (reportCause r s).port = s.port ∧
    (reportCause r s).counters = s.counters ∧ (reportCause r s).freeCount = s.freeCount ∧
    (reportCause r s).pending = s.pending := by
  unfold reportCause; dsimp only; (repeat' split) <;> simp

/-- reportAll changes only: controller wake host. -/
@[simp] theorem reportAll_keeps (rs : List Report) (s : State) :
    (reportAll rs s).time = s.time ∧ (reportAll rs s).responder = s.responder ∧
    (reportAll rs s).classifier = s.classifier ∧ (reportAll rs s).builder = s.builder ∧
    (reportAll rs s).keeper = s.keeper ∧ (reportAll rs s).hold = s.hold ∧ (reportAll rs s).port = s.port ∧
    (reportAll rs s).counters = s.counters ∧ (reportAll rs s).freeCount = s.freeCount ∧
    (reportAll rs s).pending = s.pending := by
  induction rs generalizing s with
  | nil => simp [reportAll]
  | cons r rs ih => simpa [reportAll] using ih (reportCause r s)

/-- reportTwo changes only: controller wake host freeCount. -/
@[simp] theorem reportTwo_keeps (xs ys : List Report) (s : State) :
    (reportTwo xs ys s).time = s.time ∧ (reportTwo xs ys s).responder = s.responder ∧
    (reportTwo xs ys s).classifier = s.classifier ∧ (reportTwo xs ys s).builder = s.builder ∧
    (reportTwo xs ys s).keeper = s.keeper ∧ (reportTwo xs ys s).hold = s.hold ∧
    (reportTwo xs ys s).port = s.port ∧ (reportTwo xs ys s).counters = s.counters ∧
    (reportTwo xs ys s).pending = s.pending := by
  simp [reportTwo]

/-- replyInFlight changes only: host. -/
@[simp] theorem replyInFlight_keeps (body : List Byte) (s : State) :
    (replyInFlight body s).time = s.time ∧ (replyInFlight body s).controller = s.controller ∧
    (replyInFlight body s).responder = s.responder ∧ (replyInFlight body s).classifier = s.classifier ∧
    (replyInFlight body s).builder = s.builder ∧ (replyInFlight body s).keeper = s.keeper ∧
    (replyInFlight body s).hold = s.hold ∧ (replyInFlight body s).wake = s.wake ∧
    (replyInFlight body s).port = s.port ∧ (replyInFlight body s).counters = s.counters ∧
    (replyInFlight body s).freeCount = s.freeCount ∧ (replyInFlight body s).pending = s.pending := by
  unfold replyInFlight; dsimp only; (repeat' split) <;> simp

/-- endArming changes only: controller wake host. -/
@[simp] theorem endArming_keeps (linkDown : Bool) (s : State) :
    (endArming linkDown s).time = s.time ∧ (endArming linkDown s).responder = s.responder ∧
    (endArming linkDown s).classifier = s.classifier ∧ (endArming linkDown s).builder = s.builder ∧
    (endArming linkDown s).keeper = s.keeper ∧ (endArming linkDown s).hold = s.hold ∧
    (endArming linkDown s).port = s.port ∧ (endArming linkDown s).counters = s.counters ∧
    (endArming linkDown s).freeCount = s.freeCount ∧ (endArming linkDown s).pending = s.pending := by
  unfold endArming; dsimp only; (repeat' split) <;> simp

/-- checkArmingEnd changes only: controller wake host. -/
@[simp] theorem checkArmingEnd_keeps (s : State) :
    (checkArmingEnd s).time = s.time ∧ (checkArmingEnd s).responder = s.responder ∧
    (checkArmingEnd s).classifier = s.classifier ∧ (checkArmingEnd s).builder = s.builder ∧
    (checkArmingEnd s).keeper = s.keeper ∧ (checkArmingEnd s).hold = s.hold ∧
    (checkArmingEnd s).port = s.port ∧ (checkArmingEnd s).counters = s.counters ∧
    (checkArmingEnd s).freeCount = s.freeCount ∧ (checkArmingEnd s).pending = s.pending := by
  unfold checkArmingEnd; (repeat' split) <;> simp

/-- touchEntry changes only: responder. -/
@[simp] theorem touchEntry_keeps (i : Nat) (f : IdentityEntry → IdentityEntry) (s : State) :
    (touchEntry i f s).time = s.time ∧ (touchEntry i f s).controller = s.controller ∧
    (touchEntry i f s).classifier = s.classifier ∧ (touchEntry i f s).builder = s.builder ∧
    (touchEntry i f s).keeper = s.keeper ∧ (touchEntry i f s).hold = s.hold ∧
    (touchEntry i f s).wake = s.wake ∧ (touchEntry i f s).port = s.port ∧ (touchEntry i f s).host = s.host ∧
    (touchEntry i f s).counters = s.counters ∧ (touchEntry i f s).freeCount = s.freeCount ∧
    (touchEntry i f s).pending = s.pending := by
  unfold touchEntry; dsimp only; (repeat' split) <;> simp

/-- touchSession changes only: keeper. -/
@[simp] theorem touchSession_keeps (i : Nat) (f : Session → Session) (s : State) :
    (touchSession i f s).time = s.time ∧ (touchSession i f s).controller = s.controller ∧
    (touchSession i f s).responder = s.responder ∧ (touchSession i f s).classifier = s.classifier ∧
    (touchSession i f s).builder = s.builder ∧ (touchSession i f s).hold = s.hold ∧
    (touchSession i f s).wake = s.wake ∧ (touchSession i f s).port = s.port ∧
    (touchSession i f s).host = s.host ∧ (touchSession i f s).counters = s.counters ∧
    (touchSession i f s).freeCount = s.freeCount ∧ (touchSession i f s).pending = s.pending := by
  unfold touchSession; dsimp only; (repeat' split) <;> simp

/-- touchTemplate changes only: builder. -/
@[simp] theorem touchTemplate_keeps (i : Nat) (f : Template → Template) (s : State) :
    (touchTemplate i f s).time = s.time ∧ (touchTemplate i f s).controller = s.controller ∧
    (touchTemplate i f s).responder = s.responder ∧ (touchTemplate i f s).classifier = s.classifier ∧
    (touchTemplate i f s).keeper = s.keeper ∧ (touchTemplate i f s).hold = s.hold ∧
    (touchTemplate i f s).wake = s.wake ∧ (touchTemplate i f s).port = s.port ∧
    (touchTemplate i f s).host = s.host ∧ (touchTemplate i f s).counters = s.counters ∧
    (touchTemplate i f s).freeCount = s.freeCount ∧ (touchTemplate i f s).pending = s.pending := by
  unfold touchTemplate; dsimp only; (repeat' split) <;> simp

/-- touchRule changes only: classifier. -/
@[simp] theorem touchRule_keeps (place : Option Nat) (f : Rule → Rule) (s : State) :
    (touchRule place f s).time = s.time ∧ (touchRule place f s).controller = s.controller ∧
    (touchRule place f s).responder = s.responder ∧ (touchRule place f s).builder = s.builder ∧
    (touchRule place f s).keeper = s.keeper ∧ (touchRule place f s).hold = s.hold ∧
    (touchRule place f s).wake = s.wake ∧ (touchRule place f s).port = s.port ∧
    (touchRule place f s).host = s.host ∧ (touchRule place f s).counters = s.counters ∧
    (touchRule place f s).freeCount = s.freeCount ∧ (touchRule place f s).pending = s.pending := by
  unfold touchRule; dsimp only; (repeat' split) <;> simp

/-- settle changes only: controller classifier host counters. -/
@[simp] theorem settle_keeps (d : Disposition) (s : State) :
    (settle d s).time = s.time ∧ (settle d s).responder = s.responder ∧ (settle d s).builder = s.builder ∧
    (settle d s).keeper = s.keeper ∧ (settle d s).hold = s.hold ∧ (settle d s).wake = s.wake ∧
    (settle d s).port = s.port ∧ (settle d s).freeCount = s.freeCount ∧ (settle d s).pending = s.pending := by
  simp [settle]

/-- updateLevel changes only: hold. -/
@[simp] theorem updateLevel_keeps (s : State) :
    (updateLevel s).time = s.time ∧ (updateLevel s).controller = s.controller ∧
    (updateLevel s).responder = s.responder ∧ (updateLevel s).classifier = s.classifier ∧
    (updateLevel s).builder = s.builder ∧ (updateLevel s).keeper = s.keeper ∧ (updateLevel s).wake = s.wake ∧
    (updateLevel s).port = s.port ∧ (updateLevel s).host = s.host ∧ (updateLevel s).counters = s.counters ∧
    (updateLevel s).freeCount = s.freeCount ∧ (updateLevel s).pending = s.pending := by
  simp [updateLevel]

/-- sendingStep changes only: hold port. -/
@[simp] theorem sendingStep_keeps (s : State) :
    (sendingStep s).time = s.time ∧ (sendingStep s).controller = s.controller ∧
    (sendingStep s).responder = s.responder ∧ (sendingStep s).classifier = s.classifier ∧
    (sendingStep s).builder = s.builder ∧ (sendingStep s).keeper = s.keeper ∧ (sendingStep s).wake = s.wake ∧
    (sendingStep s).host = s.host ∧ (sendingStep s).counters = s.counters ∧
    (sendingStep s).freeCount = s.freeCount ∧ (sendingStep s).pending = s.pending := by
  unfold sendingStep; dsimp only; (repeat' split) <;> simp

/-- acceptHold changes only: hold counters. -/
@[simp] theorem acceptHold_keeps (frame : List Byte) (source : HoldSource) (kept : Bool) (m : Nat) (s : State) :
    (acceptHold frame source kept m s).time = s.time ∧
    (acceptHold frame source kept m s).controller = s.controller ∧
    (acceptHold frame source kept m s).responder = s.responder ∧
    (acceptHold frame source kept m s).classifier = s.classifier ∧
    (acceptHold frame source kept m s).builder = s.builder ∧
    (acceptHold frame source kept m s).keeper = s.keeper ∧ (acceptHold frame source kept m s).wake = s.wake ∧
    (acceptHold frame source kept m s).port = s.port ∧ (acceptHold frame source kept m s).host = s.host ∧
    (acceptHold frame source kept m s).freeCount = s.freeCount ∧
    (acceptHold frame source kept m s).pending = s.pending := by
  simp [acceptHold]

/-- requestHold changes only: hold port counters. -/
@[simp] theorem requestHold_keeps (frame : List Byte) (source : HoldSource) (kept : Bool) (s : State) :
    ((requestHold frame source kept s).state).time = s.time ∧
    ((requestHold frame source kept s).state).controller = s.controller ∧
    ((requestHold frame source kept s).state).responder = s.responder ∧
    ((requestHold frame source kept s).state).classifier = s.classifier ∧
    ((requestHold frame source kept s).state).builder = s.builder ∧
    ((requestHold frame source kept s).state).keeper = s.keeper ∧
    ((requestHold frame source kept s).state).wake = s.wake ∧
    ((requestHold frame source kept s).state).host = s.host ∧
    ((requestHold frame source kept s).state).freeCount = s.freeCount ∧
    ((requestHold frame source kept s).state).pending = s.pending := by
  unfold requestHold; dsimp only; (repeat' split) <;> simp

/-- takeDeliverDone changes only: hold counters. -/
@[simp] theorem takeDeliverDone_keeps (s : State) :
    (takeDeliverDone s).time = s.time ∧ (takeDeliverDone s).controller = s.controller ∧
    (takeDeliverDone s).responder = s.responder ∧ (takeDeliverDone s).classifier = s.classifier ∧
    (takeDeliverDone s).builder = s.builder ∧ (takeDeliverDone s).keeper = s.keeper ∧
    (takeDeliverDone s).wake = s.wake ∧ (takeDeliverDone s).port = s.port ∧ (takeDeliverDone s).host = s.host ∧
    (takeDeliverDone s).freeCount = s.freeCount ∧ (takeDeliverDone s).pending = s.pending := by
  unfold takeDeliverDone; dsimp only; (repeat' split) <;> simp

/-- resetDeliveries changes only: hold. -/
@[simp] theorem resetDeliveries_keeps (s : State) :
    (resetDeliveries s).time = s.time ∧ (resetDeliveries s).controller = s.controller ∧
    (resetDeliveries s).responder = s.responder ∧ (resetDeliveries s).classifier = s.classifier ∧
    (resetDeliveries s).builder = s.builder ∧ (resetDeliveries s).keeper = s.keeper ∧
    (resetDeliveries s).wake = s.wake ∧ (resetDeliveries s).port = s.port ∧ (resetDeliveries s).host = s.host ∧
    (resetDeliveries s).counters = s.counters ∧ (resetDeliveries s).freeCount = s.freeCount ∧
    (resetDeliveries s).pending = s.pending := by
  simp [resetDeliveries]

/-- cutReturn changes only: controller hold host counters. -/
@[simp] theorem cutReturn_keeps (s : State) :
    (cutReturn s).time = s.time ∧ (cutReturn s).responder = s.responder ∧
    (cutReturn s).classifier = s.classifier ∧ (cutReturn s).builder = s.builder ∧
    (cutReturn s).keeper = s.keeper ∧ (cutReturn s).wake = s.wake ∧ (cutReturn s).port = s.port ∧
    (cutReturn s).freeCount = s.freeCount ∧ (cutReturn s).pending = s.pending := by
  simp [cutReturn]

/-- modifySession changes only: keeper. -/
@[simp] theorem modifySession_keeps (i : Nat) (f : Session → Session) (s : State) :
    (modifySession i f s).time = s.time ∧ (modifySession i f s).controller = s.controller ∧
    (modifySession i f s).responder = s.responder ∧ (modifySession i f s).classifier = s.classifier ∧
    (modifySession i f s).builder = s.builder ∧ (modifySession i f s).hold = s.hold ∧
    (modifySession i f s).wake = s.wake ∧ (modifySession i f s).port = s.port ∧
    (modifySession i f s).host = s.host ∧ (modifySession i f s).counters = s.counters ∧
    (modifySession i f s).freeCount = s.freeCount ∧ (modifySession i f s).pending = s.pending := by
  simp [modifySession]

/-- offerProbe changes only: keeper port counters. -/
@[simp] theorem offerProbe_keeps (i : Nat) (s : State) :
    (offerProbe i s).time = s.time ∧ (offerProbe i s).controller = s.controller ∧
    (offerProbe i s).responder = s.responder ∧ (offerProbe i s).classifier = s.classifier ∧
    (offerProbe i s).builder = s.builder ∧ (offerProbe i s).hold = s.hold ∧ (offerProbe i s).wake = s.wake ∧
    (offerProbe i s).host = s.host ∧ (offerProbe i s).freeCount = s.freeCount ∧
    (offerProbe i s).pending = s.pending := by
  unfold offerProbe
  split <;> (try split) <;> (try split) <;> simp

/-- A run of operations over a list changes only what each of them changes. -/
theorem foldl_keeps {α β : Type} (p : State → β) (f : State → α → State) (h : ∀ s a, p (f s a) = p s) (l : List α)
    (s : State) : p (l.foldl f s) = p s := by
  induction l generalizing s with
  | nil => rfl
  | cons a l ih => rw [List.foldl_cons, ih, h]

/-- keeperOffers changes only: keeper port counters. -/
@[simp] theorem keeperOffers_keeps (s : State) :
    (keeperOffers s).time = s.time ∧ (keeperOffers s).controller = s.controller ∧
    (keeperOffers s).responder = s.responder ∧ (keeperOffers s).classifier = s.classifier ∧
    (keeperOffers s).builder = s.builder ∧ (keeperOffers s).hold = s.hold ∧ (keeperOffers s).wake = s.wake ∧
    (keeperOffers s).host = s.host ∧ (keeperOffers s).freeCount = s.freeCount ∧
    (keeperOffers s).pending = s.pending := by
  unfold keeperOffers
  exact ⟨foldl_keeps State.time _ (by simp) _ _, foldl_keeps State.controller _ (by simp) _ _,
    foldl_keeps State.responder _ (by simp) _ _, foldl_keeps State.classifier _ (by simp) _ _,
    foldl_keeps State.builder _ (by simp) _ _, foldl_keeps State.hold _ (by simp) _ _,
    foldl_keeps State.wake _ (by simp) _ _, foldl_keeps State.host _ (by simp) _ _,
    foldl_keeps State.freeCount _ (by simp) _ _, foldl_keeps State.pending _ (by simp) _ _⟩

/-- beginRound changes only: keeper port counters. -/
@[simp] theorem beginRound_keeps (i : Nat) (s : State) :
    (beginRound i s).time = s.time ∧ (beginRound i s).controller = s.controller ∧
    (beginRound i s).responder = s.responder ∧ (beginRound i s).classifier = s.classifier ∧
    (beginRound i s).builder = s.builder ∧ (beginRound i s).hold = s.hold ∧ (beginRound i s).wake = s.wake ∧
    (beginRound i s).host = s.host ∧ (beginRound i s).freeCount = s.freeCount ∧
    (beginRound i s).pending = s.pending := by
  simp [beginRound]

/-- probeTimeout changes only: controller keeper wake port host counters. -/
@[simp] theorem probeTimeout_keeps (i : Nat) (x : Session) (s : State) :
    (probeTimeout i x s).time = s.time ∧ (probeTimeout i x s).responder = s.responder ∧
    (probeTimeout i x s).classifier = s.classifier ∧ (probeTimeout i x s).builder = s.builder ∧
    (probeTimeout i x s).hold = s.hold ∧ (probeTimeout i x s).freeCount = s.freeCount ∧
    (probeTimeout i x s).pending = s.pending := by
  unfold probeTimeout; (repeat' split) <;> simp

/-- probeTimeoutDown changes only: keeper. -/
@[simp] theorem probeTimeoutDown_keeps (i : Nat) (s : State) :
    (probeTimeoutDown i s).time = s.time ∧ (probeTimeoutDown i s).controller = s.controller ∧
    (probeTimeoutDown i s).responder = s.responder ∧ (probeTimeoutDown i s).classifier = s.classifier ∧
    (probeTimeoutDown i s).builder = s.builder ∧ (probeTimeoutDown i s).hold = s.hold ∧
    (probeTimeoutDown i s).wake = s.wake ∧ (probeTimeoutDown i s).port = s.port ∧
    (probeTimeoutDown i s).host = s.host ∧ (probeTimeoutDown i s).counters = s.counters ∧
    (probeTimeoutDown i s).freeCount = s.freeCount ∧ (probeTimeoutDown i s).pending = s.pending := by
  simp [probeTimeoutDown]

/-- requeueProbes changes only: keeper. -/
@[simp] theorem requeueProbes_keeps (s : State) :
    (requeueProbes s).time = s.time ∧ (requeueProbes s).controller = s.controller ∧
    (requeueProbes s).responder = s.responder ∧ (requeueProbes s).classifier = s.classifier ∧
    (requeueProbes s).builder = s.builder ∧ (requeueProbes s).hold = s.hold ∧ (requeueProbes s).wake = s.wake ∧
    (requeueProbes s).port = s.port ∧ (requeueProbes s).host = s.host ∧
    (requeueProbes s).counters = s.counters ∧ (requeueProbes s).freeCount = s.freeCount ∧
    (requeueProbes s).pending = s.pending := by
  unfold requeueProbes; dsimp only; (repeat' split) <;> simp

/-- loseSession changes only: controller keeper wake host. -/
@[simp] theorem loseSession_keeps (i : Nat) (s : State) :
    (loseSession i s).time = s.time ∧ (loseSession i s).responder = s.responder ∧
    (loseSession i s).classifier = s.classifier ∧ (loseSession i s).builder = s.builder ∧
    (loseSession i s).hold = s.hold ∧ (loseSession i s).port = s.port ∧
    (loseSession i s).counters = s.counters ∧ (loseSession i s).freeCount = s.freeCount ∧
    (loseSession i s).pending = s.pending := by
  simp [loseSession]

/-- loseSessions changes only: controller keeper wake host. -/
@[simp] theorem loseSessions_keeps (entry : Nat) (s : State) :
    (loseSessions entry s).time = s.time ∧ (loseSessions entry s).responder = s.responder ∧
    (loseSessions entry s).classifier = s.classifier ∧ (loseSessions entry s).builder = s.builder ∧
    (loseSessions entry s).hold = s.hold ∧ (loseSessions entry s).port = s.port ∧
    (loseSessions entry s).counters = s.counters ∧ (loseSessions entry s).freeCount = s.freeCount ∧
    (loseSessions entry s).pending = s.pending := by
  unfold loseSessions
  exact ⟨foldl_keeps State.time _ (by simp) _ _, foldl_keeps State.responder _ (by simp) _ _,
    foldl_keeps State.classifier _ (by simp) _ _, foldl_keeps State.builder _ (by simp) _ _,
    foldl_keeps State.hold _ (by simp) _ _, foldl_keeps State.port _ (by simp) _ _,
    foldl_keeps State.counters _ (by simp) _ _, foldl_keeps State.freeCount _ (by simp) _ _,
    foldl_keeps State.pending _ (by simp) _ _⟩

/-- takeSegment changes only: controller classifier keeper hold wake port host counters freeCount. -/
@[simp] theorem takeSegment_keeps (i : Nat) (x : Session) (f : List Byte) (s : State) :
    (takeSegment i x f s).time = s.time ∧ (takeSegment i x f s).responder = s.responder ∧
    (takeSegment i x f s).builder = s.builder ∧ (takeSegment i x f s).pending = s.pending := by
  unfold takeSegment; dsimp only; (repeat' split) <;> simp

/-- takeSegmentReturned changes only: controller classifier keeper hold wake port host counters. -/
@[simp] theorem takeSegmentReturned_keeps (i : Nat) (x : Session) (state : SessionState) (f : List Byte) (s : State) :
    (takeSegmentReturned i x state f s).time = s.time ∧
    (takeSegmentReturned i x state f s).responder = s.responder ∧
    (takeSegmentReturned i x state f s).builder = s.builder ∧
    (takeSegmentReturned i x state f s).freeCount = s.freeCount ∧
    (takeSegmentReturned i x state f s).pending = s.pending := by
  unfold takeSegmentReturned; dsimp only; (repeat' split) <;> simp

/-- modifyEntry changes only: responder. -/
@[simp] theorem modifyEntry_keeps (i : Nat) (f : IdentityEntry → IdentityEntry) (s : State) :
    (modifyEntry i f s).time = s.time ∧ (modifyEntry i f s).controller = s.controller ∧
    (modifyEntry i f s).classifier = s.classifier ∧ (modifyEntry i f s).builder = s.builder ∧
    (modifyEntry i f s).keeper = s.keeper ∧ (modifyEntry i f s).hold = s.hold ∧
    (modifyEntry i f s).wake = s.wake ∧ (modifyEntry i f s).port = s.port ∧ (modifyEntry i f s).host = s.host ∧
    (modifyEntry i f s).counters = s.counters ∧ (modifyEntry i f s).freeCount = s.freeCount ∧
    (modifyEntry i f s).pending = s.pending := by
  simp [modifyEntry]

/-- offerList changes only: responder port counters. -/
@[simp] theorem offerList_keeps (l : List Nat) (s : State) :
    (offerList l s).time = s.time ∧ (offerList l s).controller = s.controller
    ∧ (offerList l s).classifier = s.classifier ∧ (offerList l s).builder = s.builder
    ∧ (offerList l s).keeper = s.keeper ∧ (offerList l s).hold = s.hold ∧ (offerList l s).wake = s.wake
    ∧ (offerList l s).host = s.host ∧ (offerList l s).freeCount = s.freeCount
    ∧ (offerList l s).pending = s.pending := by
  induction l generalizing s with
  | nil => simp [offerList]
  | cons i l ih =>
    unfold offerList
    split
    · exact ih s
    · dsimp only
      split
      · simp [ih]
      · simp

/-- offerDefence changes only: responder port counters. -/
@[simp] theorem offerDefence_keeps (i : Nat) (s : State) :
    (offerDefence i s).time = s.time ∧ (offerDefence i s).controller = s.controller ∧
    (offerDefence i s).classifier = s.classifier ∧ (offerDefence i s).builder = s.builder ∧
    (offerDefence i s).keeper = s.keeper ∧ (offerDefence i s).hold = s.hold ∧
    (offerDefence i s).wake = s.wake ∧ (offerDefence i s).host = s.host ∧
    (offerDefence i s).freeCount = s.freeCount ∧ (offerDefence i s).pending = s.pending := by
  unfold offerDefence
  split <;> (try split) <;> simp

/-- offerDueReport changes only: responder port counters. -/
@[simp] theorem offerDueReport_keeps (i : Nat) (s : State) :
    (offerDueReport i s).time = s.time ∧ (offerDueReport i s).controller = s.controller ∧
    (offerDueReport i s).classifier = s.classifier ∧ (offerDueReport i s).builder = s.builder ∧
    (offerDueReport i s).keeper = s.keeper ∧ (offerDueReport i s).hold = s.hold ∧
    (offerDueReport i s).wake = s.wake ∧ (offerDueReport i s).host = s.host ∧
    (offerDueReport i s).freeCount = s.freeCount ∧ (offerDueReport i s).pending = s.pending := by
  unfold offerDueReport
  split <;> (try split) <;> (try split) <;> simp

/-- responderOffers changes only: responder port counters. -/
@[simp] theorem responderOffers_keeps (s : State) :
    (responderOffers s).time = s.time ∧ (responderOffers s).controller = s.controller ∧
    (responderOffers s).classifier = s.classifier ∧ (responderOffers s).builder = s.builder ∧
    (responderOffers s).keeper = s.keeper ∧ (responderOffers s).hold = s.hold ∧
    (responderOffers s).wake = s.wake ∧ (responderOffers s).host = s.host ∧
    (responderOffers s).freeCount = s.freeCount ∧ (responderOffers s).pending = s.pending := by
  unfold responderOffers
  exact ⟨(((offerList_keeps _ _).1).trans (foldl_keeps State.time _ (by simp) _ _)).trans (foldl_keeps State.time _ (by simp) _ _),
    (((offerList_keeps _ _).2.1).trans (foldl_keeps State.controller _ (by simp) _ _)).trans (foldl_keeps State.controller _ (by simp) _ _),
    (((offerList_keeps _ _).2.2.1).trans (foldl_keeps State.classifier _ (by simp) _ _)).trans (foldl_keeps State.classifier _ (by simp) _ _),
    (((offerList_keeps _ _).2.2.2.1).trans (foldl_keeps State.builder _ (by simp) _ _)).trans (foldl_keeps State.builder _ (by simp) _ _),
    (((offerList_keeps _ _).2.2.2.2.1).trans (foldl_keeps State.keeper _ (by simp) _ _)).trans (foldl_keeps State.keeper _ (by simp) _ _),
    (((offerList_keeps _ _).2.2.2.2.2.1).trans (foldl_keeps State.hold _ (by simp) _ _)).trans (foldl_keeps State.hold _ (by simp) _ _),
    (((offerList_keeps _ _).2.2.2.2.2.2.1).trans (foldl_keeps State.wake _ (by simp) _ _)).trans (foldl_keeps State.wake _ (by simp) _ _),
    (((offerList_keeps _ _).2.2.2.2.2.2.2.1).trans (foldl_keeps State.host _ (by simp) _ _)).trans (foldl_keeps State.host _ (by simp) _ _),
    (((offerList_keeps _ _).2.2.2.2.2.2.2.2.1).trans (foldl_keeps State.freeCount _ (by simp) _ _)).trans (foldl_keeps State.freeCount _ (by simp) _ _),
    (((offerList_keeps _ _).2.2.2.2.2.2.2.2.2).trans (foldl_keeps State.pending _ (by simp) _ _)).trans (foldl_keeps State.pending _ (by simp) _ _)⟩

/-- invite changes only: responder keeper port counters. -/
@[simp] theorem invite_keeps (s : State) :
    (invite s).time = s.time ∧ (invite s).controller = s.controller ∧ (invite s).classifier = s.classifier ∧
    (invite s).builder = s.builder ∧ (invite s).hold = s.hold ∧ (invite s).wake = s.wake ∧
    (invite s).host = s.host ∧ (invite s).freeCount = s.freeCount ∧ (invite s).pending = s.pending := by
  unfold invite; dsimp only; (repeat' split) <;> simp

/-- rebuildList changes only: responder. -/
@[simp] theorem rebuildList_keeps (s : State) :
    (rebuildList s).time = s.time ∧ (rebuildList s).controller = s.controller ∧
    (rebuildList s).classifier = s.classifier ∧ (rebuildList s).builder = s.builder ∧
    (rebuildList s).keeper = s.keeper ∧ (rebuildList s).hold = s.hold ∧ (rebuildList s).wake = s.wake ∧
    (rebuildList s).port = s.port ∧ (rebuildList s).host = s.host ∧ (rebuildList s).counters = s.counters ∧
    (rebuildList s).freeCount = s.freeCount ∧ (rebuildList s).pending = s.pending := by
  simp [rebuildList]

/-- dropAnnouncements changes only: responder. -/
@[simp] theorem dropAnnouncements_keeps (s : State) :
    (dropAnnouncements s).time = s.time ∧ (dropAnnouncements s).controller = s.controller ∧
    (dropAnnouncements s).classifier = s.classifier ∧ (dropAnnouncements s).builder = s.builder ∧
    (dropAnnouncements s).keeper = s.keeper ∧ (dropAnnouncements s).hold = s.hold ∧
    (dropAnnouncements s).wake = s.wake ∧ (dropAnnouncements s).port = s.port ∧
    (dropAnnouncements s).host = s.host ∧ (dropAnnouncements s).counters = s.counters ∧
    (dropAnnouncements s).freeCount = s.freeCount ∧ (dropAnnouncements s).pending = s.pending := by
  simp [dropAnnouncements]

/-- abandonItems changes only: responder. -/
@[simp] theorem abandonItems_keeps (s : State) :
    (abandonItems s).time = s.time ∧ (abandonItems s).controller = s.controller ∧
    (abandonItems s).classifier = s.classifier ∧ (abandonItems s).builder = s.builder ∧
    (abandonItems s).keeper = s.keeper ∧ (abandonItems s).hold = s.hold ∧ (abandonItems s).wake = s.wake ∧
    (abandonItems s).port = s.port ∧ (abandonItems s).host = s.host ∧ (abandonItems s).counters = s.counters ∧
    (abandonItems s).freeCount = s.freeCount ∧ (abandonItems s).pending = s.pending := by
  simp [abandonItems]

/-- leaveActive changes only: controller responder keeper wake host. -/
@[simp] theorem leaveActive_keeps (i : Nat) (s : State) :
    (leaveActive i s).time = s.time ∧ (leaveActive i s).classifier = s.classifier ∧
    (leaveActive i s).builder = s.builder ∧ (leaveActive i s).hold = s.hold ∧ (leaveActive i s).port = s.port ∧
    (leaveActive i s).counters = s.counters ∧ (leaveActive i s).freeCount = s.freeCount ∧
    (leaveActive i s).pending = s.pending := by
  unfold leaveActive; dsimp only; (repeat' split) <;> simp

/-- raiseAnswers changes only: responder freeCount. -/
@[simp] theorem raiseAnswers_keeps (i : Nat) (s : State) :
    (raiseAnswers i s).time = s.time ∧ (raiseAnswers i s).controller = s.controller ∧
    (raiseAnswers i s).classifier = s.classifier ∧ (raiseAnswers i s).builder = s.builder ∧
    (raiseAnswers i s).keeper = s.keeper ∧ (raiseAnswers i s).hold = s.hold ∧
    (raiseAnswers i s).wake = s.wake ∧ (raiseAnswers i s).port = s.port ∧ (raiseAnswers i s).host = s.host ∧
    (raiseAnswers i s).counters = s.counters ∧ (raiseAnswers i s).pending = s.pending := by
  unfold raiseAnswers
  split <;> (try split) <;> (try split) <;> simp

/-- answerEntry changes only: controller responder classifier port host counters freeCount. -/
@[simp] theorem answerEntry_keeps (i : Nat) (e : IdentityEntry) (answer : List Byte) (s : State) :
    (answerEntry i e answer s).time = s.time ∧ (answerEntry i e answer s).builder = s.builder ∧
    (answerEntry i e answer s).keeper = s.keeper ∧ (answerEntry i e answer s).hold = s.hold ∧
    (answerEntry i e answer s).wake = s.wake ∧ (answerEntry i e answer s).pending = s.pending := by
  unfold answerEntry; dsimp only; (repeat' split) <;> simp

/-- defendEntry changes only: responder port counters. -/
@[simp] theorem defendEntry_keeps (i : Nat) (e : IdentityEntry) (s : State) :
    (defendEntry i e s).time = s.time ∧ (defendEntry i e s).controller = s.controller ∧
    (defendEntry i e s).classifier = s.classifier ∧ (defendEntry i e s).builder = s.builder ∧
    (defendEntry i e s).keeper = s.keeper ∧ (defendEntry i e s).hold = s.hold ∧
    (defendEntry i e s).wake = s.wake ∧ (defendEntry i e s).host = s.host ∧
    (defendEntry i e s).freeCount = s.freeCount ∧ (defendEntry i e s).pending = s.pending := by
  unfold defendEntry; dsimp only; (repeat' split) <;> simp

/-- cedeEntry changes only: controller responder keeper wake host. -/
@[simp] theorem cedeEntry_keeps (i : Nat) (s : State) :
    (cedeEntry i s).time = s.time ∧ (cedeEntry i s).classifier = s.classifier ∧
    (cedeEntry i s).builder = s.builder ∧ (cedeEntry i s).hold = s.hold ∧ (cedeEntry i s).port = s.port ∧
    (cedeEntry i s).counters = s.counters ∧ (cedeEntry i s).freeCount = s.freeCount ∧
    (cedeEntry i s).pending = s.pending := by
  unfold cedeEntry; split <;> simp

/-- takeConflict changes only: controller responder classifier keeper wake port host counters. -/
@[simp] theorem takeConflict_keeps (i : Nat) (e : IdentityEntry) (f : List Byte) (s : State) :
    (takeConflict i e f s).time = s.time ∧ (takeConflict i e f s).builder = s.builder ∧
    (takeConflict i e f s).hold = s.hold ∧ (takeConflict i e f s).freeCount = s.freeCount ∧
    (takeConflict i e f s).pending = s.pending := by
  unfold takeConflict; dsimp only; (repeat' split) <;> simp

/-- takeArp changes only: controller responder classifier keeper wake port host counters freeCount. -/
@[simp] theorem takeArp_keeps (f : List Byte) (s : State) :
    (takeArp f s).time = s.time ∧ (takeArp f s).builder = s.builder ∧ (takeArp f s).hold = s.hold ∧
    (takeArp f s).pending = s.pending := by
  unfold takeArp; dsimp only; (repeat' split) <;> simp

/-- takeSolicitation changes only: controller responder classifier keeper wake port host counters freeCount. -/
@[simp] theorem takeSolicitation_keeps (f : List Byte) (ip : IpFields) (s : State) :
    (takeSolicitation f ip s).time = s.time ∧ (takeSolicitation f ip s).builder = s.builder ∧
    (takeSolicitation f ip s).hold = s.hold ∧ (takeSolicitation f ip s).pending = s.pending := by
  unfold takeSolicitation; dsimp only; (repeat' split) <;> simp

/-- takeAdvertisement changes only: controller responder classifier keeper wake port host counters freeCount. -/
@[simp] theorem takeAdvertisement_keeps (f : List Byte) (ip : IpFields) (s : State) :
    (takeAdvertisement f ip s).time = s.time ∧ (takeAdvertisement f ip s).builder = s.builder ∧
    (takeAdvertisement f ip s).hold = s.hold ∧ (takeAdvertisement f ip s).pending = s.pending := by
  unfold takeAdvertisement; (repeat' split) <;> simp

/-- takeQuery changes only: controller responder classifier host counters. -/
@[simp] theorem takeQuery_keeps (kind : EntryKind) (vlan : Nat) (group : Addr) (t : Nat) (form : ReportForm) (s : State) :
    (takeQuery kind vlan group t form s).time = s.time ∧
    (takeQuery kind vlan group t form s).builder = s.builder ∧
    (takeQuery kind vlan group t form s).keeper = s.keeper ∧
    (takeQuery kind vlan group t form s).hold = s.hold ∧ (takeQuery kind vlan group t form s).wake = s.wake ∧
    (takeQuery kind vlan group t form s).port = s.port ∧
    (takeQuery kind vlan group t form s).freeCount = s.freeCount ∧
    (takeQuery kind vlan group t form s).pending = s.pending := by
  unfold takeQuery
  split
  · exact ⟨((settle_keeps _ _).1).trans (foldl_keeps State.time _ (by simp) _ _),
      ((settle_keeps _ _).2.2.1).trans (foldl_keeps State.builder _ (by simp) _ _),
      ((settle_keeps _ _).2.2.2.1).trans (foldl_keeps State.keeper _ (by simp) _ _),
      ((settle_keeps _ _).2.2.2.2.1).trans (foldl_keeps State.hold _ (by simp) _ _),
      ((settle_keeps _ _).2.2.2.2.2.1).trans (foldl_keeps State.wake _ (by simp) _ _),
      ((settle_keeps _ _).2.2.2.2.2.2.1).trans (foldl_keeps State.port _ (by simp) _ _),
      ((settle_keeps _ _).2.2.2.2.2.2.2.1).trans (foldl_keeps State.freeCount _ (by simp) _ _),
      ((settle_keeps _ _).2.2.2.2.2.2.2.2).trans (foldl_keeps State.pending _ (by simp) _ _)⟩
  · simp

/-- takeIgmpQuery changes only: controller responder classifier host counters. -/
@[simp] theorem takeIgmpQuery_keeps (f : List Byte) (ip : IpFields) (s : State) :
    (takeIgmpQuery f ip s).time = s.time ∧ (takeIgmpQuery f ip s).builder = s.builder ∧
    (takeIgmpQuery f ip s).keeper = s.keeper ∧ (takeIgmpQuery f ip s).hold = s.hold ∧
    (takeIgmpQuery f ip s).wake = s.wake ∧ (takeIgmpQuery f ip s).port = s.port ∧
    (takeIgmpQuery f ip s).freeCount = s.freeCount ∧ (takeIgmpQuery f ip s).pending = s.pending := by
  unfold takeIgmpQuery; (repeat' split) <;> simp

/-- takeMldQuery changes only: controller responder classifier host counters. -/
@[simp] theorem takeMldQuery_keeps (f : List Byte) (ip : IpFields) (s : State) :
    (takeMldQuery f ip s).time = s.time ∧ (takeMldQuery f ip s).builder = s.builder ∧
    (takeMldQuery f ip s).keeper = s.keeper ∧ (takeMldQuery f ip s).hold = s.hold ∧
    (takeMldQuery f ip s).wake = s.wake ∧ (takeMldQuery f ip s).port = s.port ∧
    (takeMldQuery f ip s).freeCount = s.freeCount ∧ (takeMldQuery f ip s).pending = s.pending := by
  unfold takeMldQuery; (repeat' split) <;> simp

/-- takeResponderFrame changes only: controller responder classifier keeper wake port host counters freeCount. -/
@[simp] theorem takeResponderFrame_keeps (kind : ResponderKind) (f : List Byte) (s : State) :
    (takeResponderFrame kind f s).time = s.time ∧ (takeResponderFrame kind f s).builder = s.builder ∧
    (takeResponderFrame kind f s).hold = s.hold ∧ (takeResponderFrame kind f s).pending = s.pending := by
  unfold takeResponderFrame; split <;> simp

/-- reportDue changes only: responder port counters. -/
@[simp] theorem reportDue_keeps (i : Nat) (e : IdentityEntry) (r : PendingReport) (s : State) :
    (reportDue i e r s).time = s.time ∧ (reportDue i e r s).controller = s.controller ∧
    (reportDue i e r s).classifier = s.classifier ∧ (reportDue i e r s).builder = s.builder ∧
    (reportDue i e r s).keeper = s.keeper ∧ (reportDue i e r s).hold = s.hold ∧
    (reportDue i e r s).wake = s.wake ∧ (reportDue i e r s).host = s.host ∧
    (reportDue i e r s).freeCount = s.freeCount ∧ (reportDue i e r s).pending = s.pending := by
  unfold reportDue; (repeat' split) <;> simp

end Sys2Proof.Machine
end

