-- ==== Sys2Proof/Laws/Commands.lean ====
section
/-! SUPPORT. What the course of a stand-in and the meanings of the commands leave as they were. -/

namespace Sys2Proof.Machine

open Sys2Proof

/-- startBlocks changes only: controller responder classifier keeper wake host. -/
@[simp] theorem startBlocks_keeps (depth : Depth) (tag : Byte) (s : State) :
    (startBlocks depth tag s).time = s.time ∧ (startBlocks depth tag s).builder = s.builder ∧
    (startBlocks depth tag s).hold = s.hold ∧ (startBlocks depth tag s).port = s.port ∧
    (startBlocks depth tag s).counters = s.counters ∧ (startBlocks depth tag s).freeCount = s.freeCount ∧
    (startBlocks depth tag s).pending = s.pending := by
  simp [startBlocks]

/-- beginDueRounds changes only: keeper port counters. -/
@[simp] theorem beginDueRounds_keeps (s : State) :
    (beginDueRounds s).time = s.time ∧ (beginDueRounds s).controller = s.controller ∧
    (beginDueRounds s).responder = s.responder ∧ (beginDueRounds s).classifier = s.classifier ∧
    (beginDueRounds s).builder = s.builder ∧ (beginDueRounds s).hold = s.hold ∧
    (beginDueRounds s).wake = s.wake ∧ (beginDueRounds s).host = s.host ∧
    (beginDueRounds s).freeCount = s.freeCount ∧ (beginDueRounds s).pending = s.pending := by
  unfold beginDueRounds
  exact ⟨foldl_keeps State.time _ (by simp) _ _,
    foldl_keeps State.controller _ (by simp) _ _,
    foldl_keeps State.responder _ (by simp) _ _,
    foldl_keeps State.classifier _ (by simp) _ _,
    foldl_keeps State.builder _ (by simp) _ _,
    foldl_keeps State.hold _ (by simp) _ _,
    foldl_keeps State.wake _ (by simp) _ _,
    foldl_keeps State.host _ (by simp) _ _,
    foldl_keeps State.freeCount _ (by simp) _ _,
    foldl_keeps State.pending _ (by simp) _ _⟩

/-- offerListNow changes only: responder port counters. -/
@[simp] theorem offerListNow_keeps (s : State) :
    (offerListNow s).time = s.time ∧ (offerListNow s).controller = s.controller ∧
    (offerListNow s).classifier = s.classifier ∧ (offerListNow s).builder = s.builder ∧
    (offerListNow s).keeper = s.keeper ∧ (offerListNow s).hold = s.hold ∧ (offerListNow s).wake = s.wake ∧
    (offerListNow s).host = s.host ∧ (offerListNow s).freeCount = s.freeCount ∧
    (offerListNow s).pending = s.pending := by
  unfold offerListNow; (repeat' split) <;> simp

/-- startStandIn changes only: controller responder classifier keeper wake port host counters freeCount. -/
@[simp] theorem startStandIn_keeps (depth : Depth) (tag : Byte) (s : State) :
    (startStandIn depth tag s).time = s.time ∧ (startStandIn depth tag s).builder = s.builder ∧
    (startStandIn depth tag s).hold = s.hold ∧ (startStandIn depth tag s).pending = s.pending := by
  unfold startStandIn; dsimp only; (repeat' split) <;> simp

/-- enterReturning changes only: controller responder classifier keeper hold wake port host. -/
@[simp] theorem enterReturning_keeps (reason : Reason) (outcome : WakeOutcome) (s : State) :
    (enterReturning reason outcome s).time = s.time ∧ (enterReturning reason outcome s).builder = s.builder ∧
    (enterReturning reason outcome s).counters = s.counters ∧
    (enterReturning reason outcome s).freeCount = s.freeCount ∧
    (enterReturning reason outcome s).pending = s.pending := by
  simp [enterReturning]

/-- settleProbeAt changes only: keeper. -/
@[simp] theorem settleProbeAt_keeps (i number : Nat) (done : Bool) (s : State) :
    (settleProbeAt i number done s).time = s.time ∧ (settleProbeAt i number done s).controller = s.controller ∧
    (settleProbeAt i number done s).responder = s.responder ∧
    (settleProbeAt i number done s).classifier = s.classifier ∧
    (settleProbeAt i number done s).builder = s.builder ∧ (settleProbeAt i number done s).hold = s.hold ∧
    (settleProbeAt i number done s).wake = s.wake ∧ (settleProbeAt i number done s).port = s.port ∧
    (settleProbeAt i number done s).host = s.host ∧ (settleProbeAt i number done s).counters = s.counters ∧
    (settleProbeAt i number done s).freeCount = s.freeCount ∧
    (settleProbeAt i number done s).pending = s.pending := by
  simp [settleProbeAt]

/-- settleListItem changes only: controller responder wake host. -/
@[simp] theorem settleListItem_keeps (build : Nat) (done : Bool) (s : State) :
    (settleListItem build done s).time = s.time ∧ (settleListItem build done s).classifier = s.classifier ∧
    (settleListItem build done s).builder = s.builder ∧ (settleListItem build done s).keeper = s.keeper ∧
    (settleListItem build done s).hold = s.hold ∧ (settleListItem build done s).port = s.port ∧
    (settleListItem build done s).counters = s.counters ∧
    (settleListItem build done s).freeCount = s.freeCount ∧
    (settleListItem build done s).pending = s.pending := by
  unfold settleListItem; dsimp only; (repeat' split) <;> simp

/-- tellOwner changes only: controller responder keeper wake host. -/
@[simp] theorem tellOwner_keeps (owner : TxOwner) (done : Bool) (s : State) :
    (tellOwner owner done s).time = s.time ∧ (tellOwner owner done s).classifier = s.classifier ∧
    (tellOwner owner done s).builder = s.builder ∧ (tellOwner owner done s).hold = s.hold ∧
    (tellOwner owner done s).port = s.port ∧ (tellOwner owner done s).counters = s.counters ∧
    (tellOwner owner done s).freeCount = s.freeCount ∧ (tellOwner owner done s).pending = s.pending := by
  unfold tellOwner; split <;> simp

/-- settleTx changes only: controller responder keeper wake port host counters. -/
@[simp] theorem settleTx_keeps (done : Bool) (s : State) :
    (settleTx done s).time = s.time ∧ (settleTx done s).classifier = s.classifier ∧
    (settleTx done s).builder = s.builder ∧ (settleTx done s).hold = s.hold ∧
    (settleTx done s).freeCount = s.freeCount ∧ (settleTx done s).pending = s.pending := by
  unfold settleTx; dsimp only; (repeat' split) <;> simp

/-- loseLink changes only: controller wake port host. -/
@[simp] theorem loseLink_keeps (record : LinkRecord) (s : State) :
    (loseLink record s).time = s.time ∧ (loseLink record s).responder = s.responder ∧
    (loseLink record s).classifier = s.classifier ∧ (loseLink record s).builder = s.builder ∧
    (loseLink record s).keeper = s.keeper ∧ (loseLink record s).hold = s.hold ∧
    (loseLink record s).counters = s.counters ∧ (loseLink record s).freeCount = s.freeCount ∧
    (loseLink record s).pending = s.pending := by
  unfold loseLink; dsimp only; (repeat' split) <;> simp

/-- raiseLink changes only: responder keeper hold port host counters. -/
@[simp] theorem raiseLink_keeps (s : State) :
    (raiseLink s).time = s.time ∧ (raiseLink s).controller = s.controller ∧
    (raiseLink s).classifier = s.classifier ∧ (raiseLink s).builder = s.builder ∧ (raiseLink s).wake = s.wake ∧
    (raiseLink s).freeCount = s.freeCount ∧ (raiseLink s).pending = s.pending := by
  unfold raiseLink; dsimp only; split <;> simp

/-- countDropped changes only: counters. -/
@[simp] theorem countDropped_keeps (kind : TxKind) (s : State) :
    (countDropped kind s).time = s.time ∧ (countDropped kind s).controller = s.controller ∧
    (countDropped kind s).responder = s.responder ∧ (countDropped kind s).classifier = s.classifier ∧
    (countDropped kind s).builder = s.builder ∧ (countDropped kind s).keeper = s.keeper ∧
    (countDropped kind s).hold = s.hold ∧ (countDropped kind s).wake = s.wake ∧
    (countDropped kind s).port = s.port ∧ (countDropped kind s).host = s.host ∧
    (countDropped kind s).freeCount = s.freeCount ∧ (countDropped kind s).pending = s.pending := by
  simp [countDropped]

/-- clearPort changes only: responder keeper hold port counters. -/
@[simp] theorem clearPort_keeps (s : State) :
    (clearPort s).time = s.time ∧ (clearPort s).controller = s.controller ∧
    (clearPort s).classifier = s.classifier ∧ (clearPort s).builder = s.builder ∧ (clearPort s).wake = s.wake ∧
    (clearPort s).host = s.host ∧ (clearPort s).freeCount = s.freeCount ∧
    (clearPort s).pending = s.pending := by
  simp [clearPort]

/-- setPrevious changes only: host. -/
@[simp] theorem setPrevious_keeps (o : FrameOutcome) (s : State) :
    (setPrevious o s).time = s.time ∧ (setPrevious o s).controller = s.controller ∧
    (setPrevious o s).responder = s.responder ∧ (setPrevious o s).classifier = s.classifier ∧
    (setPrevious o s).builder = s.builder ∧ (setPrevious o s).keeper = s.keeper ∧
    (setPrevious o s).hold = s.hold ∧ (setPrevious o s).wake = s.wake ∧ (setPrevious o s).port = s.port ∧
    (setPrevious o s).counters = s.counters ∧ (setPrevious o s).freeCount = s.freeCount ∧
    (setPrevious o s).pending = s.pending := by
  simp [setPrevious]

/-- notTakenBusy changes only: host counters. -/
@[simp] theorem notTakenBusy_keeps (s : State) :
    (notTakenBusy s).time = s.time ∧ (notTakenBusy s).controller = s.controller ∧
    (notTakenBusy s).responder = s.responder ∧ (notTakenBusy s).classifier = s.classifier ∧
    (notTakenBusy s).builder = s.builder ∧ (notTakenBusy s).keeper = s.keeper ∧
    (notTakenBusy s).hold = s.hold ∧ (notTakenBusy s).wake = s.wake ∧ (notTakenBusy s).port = s.port ∧
    (notTakenBusy s).freeCount = s.freeCount ∧ (notTakenBusy s).pending = s.pending := by
  simp [notTakenBusy]

/-- refuse changes only: host. -/
@[simp] theorem refuse_keeps (tag : Byte) (status : Status) (s : State) :
    (refuse tag status s).time = s.time ∧ (refuse tag status s).controller = s.controller ∧
    (refuse tag status s).responder = s.responder ∧ (refuse tag status s).classifier = s.classifier ∧
    (refuse tag status s).builder = s.builder ∧ (refuse tag status s).keeper = s.keeper ∧
    (refuse tag status s).hold = s.hold ∧ (refuse tag status s).wake = s.wake ∧
    (refuse tag status s).port = s.port ∧ (refuse tag status s).counters = s.counters ∧
    (refuse tag status s).freeCount = s.freeCount ∧ (refuse tag status s).pending = s.pending := by
  simp [refuse]

/-- okReply changes only: host. -/
@[simp] theorem okReply_keeps (tag : Byte) (rest : List Byte) (s : State) :
    (okReply tag rest s).time = s.time ∧ (okReply tag rest s).controller = s.controller ∧
    (okReply tag rest s).responder = s.responder ∧ (okReply tag rest s).classifier = s.classifier ∧
    (okReply tag rest s).builder = s.builder ∧ (okReply tag rest s).keeper = s.keeper ∧
    (okReply tag rest s).hold = s.hold ∧ (okReply tag rest s).wake = s.wake ∧
    (okReply tag rest s).port = s.port ∧ (okReply tag rest s).counters = s.counters ∧
    (okReply tag rest s).freeCount = s.freeCount ∧ (okReply tag rest s).pending = s.pending := by
  simp [okReply]

/-- supersede changes only: classifier. -/
@[simp] theorem supersede_keeps (f : Superseded → Superseded) (s : State) :
    (supersede f s).time = s.time ∧ (supersede f s).controller = s.controller ∧
    (supersede f s).responder = s.responder ∧ (supersede f s).builder = s.builder ∧
    (supersede f s).keeper = s.keeper ∧ (supersede f s).hold = s.hold ∧ (supersede f s).wake = s.wake ∧
    (supersede f s).port = s.port ∧ (supersede f s).host = s.host ∧ (supersede f s).counters = s.counters ∧
    (supersede f s).freeCount = s.freeCount ∧ (supersede f s).pending = s.pending := by
  simp [supersede]

/-- writeEntry changes only: responder classifier. -/
@[simp] theorem writeEntry_keeps (i : Nat) (e : Option IdentityEntry) (s : State) :
    (writeEntry i e s).time = s.time ∧ (writeEntry i e s).controller = s.controller ∧
    (writeEntry i e s).builder = s.builder ∧ (writeEntry i e s).keeper = s.keeper ∧
    (writeEntry i e s).hold = s.hold ∧ (writeEntry i e s).wake = s.wake ∧ (writeEntry i e s).port = s.port ∧
    (writeEntry i e s).host = s.host ∧ (writeEntry i e s).counters = s.counters ∧
    (writeEntry i e s).freeCount = s.freeCount ∧ (writeEntry i e s).pending = s.pending := by
  simp [writeEntry]

/-- writeSession changes only: keeper classifier. -/
@[simp] theorem writeSession_keeps (i : Nat) (x : Option Session) (s : State) :
    (writeSession i x s).time = s.time ∧ (writeSession i x s).controller = s.controller ∧
    (writeSession i x s).responder = s.responder ∧ (writeSession i x s).builder = s.builder ∧
    (writeSession i x s).hold = s.hold ∧ (writeSession i x s).wake = s.wake ∧
    (writeSession i x s).port = s.port ∧ (writeSession i x s).host = s.host ∧
    (writeSession i x s).counters = s.counters ∧ (writeSession i x s).freeCount = s.freeCount ∧
    (writeSession i x s).pending = s.pending := by
  simp [writeSession]

/-- writeTemplate changes only: builder classifier. -/
@[simp] theorem writeTemplate_keeps (i : Nat) (t : Option Template) (s : State) :
    (writeTemplate i t s).time = s.time ∧ (writeTemplate i t s).controller = s.controller ∧
    (writeTemplate i t s).responder = s.responder ∧ (writeTemplate i t s).keeper = s.keeper ∧
    (writeTemplate i t s).hold = s.hold ∧ (writeTemplate i t s).wake = s.wake ∧
    (writeTemplate i t s).port = s.port ∧ (writeTemplate i t s).host = s.host ∧
    (writeTemplate i t s).counters = s.counters ∧ (writeTemplate i t s).freeCount = s.freeCount ∧
    (writeTemplate i t s).pending = s.pending := by
  simp [writeTemplate]

/-- writeRules changes only: classifier. -/
@[simp] theorem writeRules_keeps (new : List Rule) (place : Nat → Option Nat) (s : State) :
    (writeRules new place s).time = s.time ∧ (writeRules new place s).controller = s.controller ∧
    (writeRules new place s).responder = s.responder ∧ (writeRules new place s).builder = s.builder ∧
    (writeRules new place s).keeper = s.keeper ∧ (writeRules new place s).hold = s.hold ∧
    (writeRules new place s).wake = s.wake ∧ (writeRules new place s).port = s.port ∧
    (writeRules new place s).host = s.host ∧ (writeRules new place s).counters = s.counters ∧
    (writeRules new place s).freeCount = s.freeCount ∧ (writeRules new place s).pending = s.pending := by
  simp [writeRules]

/-- writePolicy changes only: classifier wake. -/
@[simp] theorem writePolicy_keeps (p : Policy) (s : State) :
    (writePolicy p s).time = s.time ∧ (writePolicy p s).controller = s.controller ∧
    (writePolicy p s).responder = s.responder ∧ (writePolicy p s).builder = s.builder ∧
    (writePolicy p s).keeper = s.keeper ∧ (writePolicy p s).hold = s.hold ∧ (writePolicy p s).port = s.port ∧
    (writePolicy p s).host = s.host ∧ (writePolicy p s).counters = s.counters ∧
    (writePolicy p s).freeCount = s.freeCount ∧ (writePolicy p s).pending = s.pending := by
  simp [writePolicy]

/-- insertRule changes only: classifier. -/
@[simp] theorem insertRule_keeps (p : Nat) (r : Rule) (s : State) :
    (insertRule p r s).time = s.time ∧ (insertRule p r s).controller = s.controller ∧
    (insertRule p r s).responder = s.responder ∧ (insertRule p r s).builder = s.builder ∧
    (insertRule p r s).keeper = s.keeper ∧ (insertRule p r s).hold = s.hold ∧
    (insertRule p r s).wake = s.wake ∧ (insertRule p r s).port = s.port ∧ (insertRule p r s).host = s.host ∧
    (insertRule p r s).counters = s.counters ∧ (insertRule p r s).freeCount = s.freeCount ∧
    (insertRule p r s).pending = s.pending := by
  simp [insertRule]

/-- removeRule changes only: classifier. -/
@[simp] theorem removeRule_keeps (p : Nat) (s : State) :
    (removeRule p s).time = s.time ∧ (removeRule p s).controller = s.controller ∧
    (removeRule p s).responder = s.responder ∧ (removeRule p s).builder = s.builder ∧
    (removeRule p s).keeper = s.keeper ∧ (removeRule p s).hold = s.hold ∧ (removeRule p s).wake = s.wake ∧
    (removeRule p s).port = s.port ∧ (removeRule p s).host = s.host ∧ (removeRule p s).counters = s.counters ∧
    (removeRule p s).freeCount = s.freeCount ∧ (removeRule p s).pending = s.pending := by
  simp [removeRule]

/-- ruleCountReply changes only: host. -/
@[simp] theorem ruleCountReply_keeps (tag : Byte) (s : State) :
    (ruleCountReply tag s).time = s.time ∧ (ruleCountReply tag s).controller = s.controller ∧
    (ruleCountReply tag s).responder = s.responder ∧ (ruleCountReply tag s).classifier = s.classifier ∧
    (ruleCountReply tag s).builder = s.builder ∧ (ruleCountReply tag s).keeper = s.keeper ∧
    (ruleCountReply tag s).hold = s.hold ∧ (ruleCountReply tag s).wake = s.wake ∧
    (ruleCountReply tag s).port = s.port ∧ (ruleCountReply tag s).counters = s.counters ∧
    (ruleCountReply tag s).freeCount = s.freeCount ∧ (ruleCountReply tag s).pending = s.pending := by
  simp [ruleCountReply]

/-- storedReply changes only: host. -/
@[simp] theorem storedReply_keeps (tag : Byte) (s : State) :
    (storedReply tag s).time = s.time ∧ (storedReply tag s).controller = s.controller ∧
    (storedReply tag s).responder = s.responder ∧ (storedReply tag s).classifier = s.classifier ∧
    (storedReply tag s).builder = s.builder ∧ (storedReply tag s).keeper = s.keeper ∧
    (storedReply tag s).hold = s.hold ∧ (storedReply tag s).wake = s.wake ∧ (storedReply tag s).port = s.port ∧
    (storedReply tag s).counters = s.counters ∧ (storedReply tag s).freeCount = s.freeCount ∧
    (storedReply tag s).pending = s.pending := by
  simp [storedReply]

/-- reqIdentityPut changes only: responder classifier host. -/
@[simp] theorem reqIdentityPut_keeps (tag : Byte) (body : List Byte) (s : State) :
    (reqIdentityPut tag body s).time = s.time ∧ (reqIdentityPut tag body s).controller = s.controller ∧
    (reqIdentityPut tag body s).builder = s.builder ∧ (reqIdentityPut tag body s).keeper = s.keeper ∧
    (reqIdentityPut tag body s).hold = s.hold ∧ (reqIdentityPut tag body s).wake = s.wake ∧
    (reqIdentityPut tag body s).port = s.port ∧ (reqIdentityPut tag body s).counters = s.counters ∧
    (reqIdentityPut tag body s).freeCount = s.freeCount ∧ (reqIdentityPut tag body s).pending = s.pending := by
  unfold reqIdentityPut; simp only [judged]; repeat' (first | split | dsimp only)
  all_goals simp

/-- reqIdentityDrop changes only: responder classifier host. -/
@[simp] theorem reqIdentityDrop_keeps (tag : Byte) (body : List Byte) (s : State) :
    (reqIdentityDrop tag body s).time = s.time ∧ (reqIdentityDrop tag body s).controller = s.controller ∧
    (reqIdentityDrop tag body s).builder = s.builder ∧ (reqIdentityDrop tag body s).keeper = s.keeper ∧
    (reqIdentityDrop tag body s).hold = s.hold ∧ (reqIdentityDrop tag body s).wake = s.wake ∧
    (reqIdentityDrop tag body s).port = s.port ∧ (reqIdentityDrop tag body s).counters = s.counters ∧
    (reqIdentityDrop tag body s).freeCount = s.freeCount ∧
    (reqIdentityDrop tag body s).pending = s.pending := by
  unfold reqIdentityDrop; simp only [judged]; repeat' (first | split | dsimp only)
  all_goals simp

/-- reqRulePut changes only: classifier host. -/
@[simp] theorem reqRulePut_keeps (tag : Byte) (body : List Byte) (s : State) :
    (reqRulePut tag body s).time = s.time ∧ (reqRulePut tag body s).controller = s.controller ∧
    (reqRulePut tag body s).responder = s.responder ∧ (reqRulePut tag body s).builder = s.builder ∧
    (reqRulePut tag body s).keeper = s.keeper ∧ (reqRulePut tag body s).hold = s.hold ∧
    (reqRulePut tag body s).wake = s.wake ∧ (reqRulePut tag body s).port = s.port ∧
    (reqRulePut tag body s).counters = s.counters ∧ (reqRulePut tag body s).freeCount = s.freeCount ∧
    (reqRulePut tag body s).pending = s.pending := by
  unfold reqRulePut; simp only [judged]; repeat' (first | split | dsimp only)
  all_goals simp

/-- reqRuleDrop changes only: classifier host. -/
@[simp] theorem reqRuleDrop_keeps (tag : Byte) (body : List Byte) (s : State) :
    (reqRuleDrop tag body s).time = s.time ∧ (reqRuleDrop tag body s).controller = s.controller ∧
    (reqRuleDrop tag body s).responder = s.responder ∧ (reqRuleDrop tag body s).builder = s.builder ∧
    (reqRuleDrop tag body s).keeper = s.keeper ∧ (reqRuleDrop tag body s).hold = s.hold ∧
    (reqRuleDrop tag body s).wake = s.wake ∧ (reqRuleDrop tag body s).port = s.port ∧
    (reqRuleDrop tag body s).counters = s.counters ∧ (reqRuleDrop tag body s).freeCount = s.freeCount ∧
    (reqRuleDrop tag body s).pending = s.pending := by
  unfold reqRuleDrop; simp only [judged]; repeat' (first | split | dsimp only)
  all_goals simp

/-- reqTemplatePut changes only: builder classifier host. -/
@[simp] theorem reqTemplatePut_keeps (tag : Byte) (body : List Byte) (s : State) :
    (reqTemplatePut tag body s).time = s.time ∧ (reqTemplatePut tag body s).controller = s.controller ∧
    (reqTemplatePut tag body s).responder = s.responder ∧ (reqTemplatePut tag body s).keeper = s.keeper ∧
    (reqTemplatePut tag body s).hold = s.hold ∧ (reqTemplatePut tag body s).wake = s.wake ∧
    (reqTemplatePut tag body s).port = s.port ∧ (reqTemplatePut tag body s).counters = s.counters ∧
    (reqTemplatePut tag body s).freeCount = s.freeCount ∧ (reqTemplatePut tag body s).pending = s.pending := by
  unfold reqTemplatePut; simp only [judged]; repeat' (first | split | dsimp only)
  all_goals simp

/-- reqTemplateDrop changes only: builder classifier host. -/
@[simp] theorem reqTemplateDrop_keeps (tag : Byte) (body : List Byte) (s : State) :
    (reqTemplateDrop tag body s).time = s.time ∧ (reqTemplateDrop tag body s).controller = s.controller ∧
    (reqTemplateDrop tag body s).responder = s.responder ∧ (reqTemplateDrop tag body s).keeper = s.keeper ∧
    (reqTemplateDrop tag body s).hold = s.hold ∧ (reqTemplateDrop tag body s).wake = s.wake ∧
    (reqTemplateDrop tag body s).port = s.port ∧ (reqTemplateDrop tag body s).counters = s.counters ∧
    (reqTemplateDrop tag body s).freeCount = s.freeCount ∧
    (reqTemplateDrop tag body s).pending = s.pending := by
  unfold reqTemplateDrop; simp only [judged]; repeat' (first | split | dsimp only)
  all_goals simp

/-- reqSessionPut changes only: keeper classifier host. -/
@[simp] theorem reqSessionPut_keeps (tag : Byte) (body : List Byte) (s : State) :
    (reqSessionPut tag body s).time = s.time ∧ (reqSessionPut tag body s).controller = s.controller ∧
    (reqSessionPut tag body s).responder = s.responder ∧ (reqSessionPut tag body s).builder = s.builder ∧
    (reqSessionPut tag body s).hold = s.hold ∧ (reqSessionPut tag body s).wake = s.wake ∧
    (reqSessionPut tag body s).port = s.port ∧ (reqSessionPut tag body s).counters = s.counters ∧
    (reqSessionPut tag body s).freeCount = s.freeCount ∧ (reqSessionPut tag body s).pending = s.pending := by
  unfold reqSessionPut; simp only [judged]; repeat' (first | split | dsimp only)
  all_goals simp

/-- reqSessionDrop changes only: keeper classifier host. -/
@[simp] theorem reqSessionDrop_keeps (tag : Byte) (body : List Byte) (s : State) :
    (reqSessionDrop tag body s).time = s.time ∧ (reqSessionDrop tag body s).controller = s.controller ∧
    (reqSessionDrop tag body s).responder = s.responder ∧ (reqSessionDrop tag body s).builder = s.builder ∧
    (reqSessionDrop tag body s).hold = s.hold ∧ (reqSessionDrop tag body s).wake = s.wake ∧
    (reqSessionDrop tag body s).port = s.port ∧ (reqSessionDrop tag body s).counters = s.counters ∧
    (reqSessionDrop tag body s).freeCount = s.freeCount ∧ (reqSessionDrop tag body s).pending = s.pending := by
  unfold reqSessionDrop; simp only [judged]; repeat' (first | split | dsimp only)
  all_goals simp

/-- reqPolicySet changes only: classifier wake host. -/
@[simp] theorem reqPolicySet_keeps (tag : Byte) (body : List Byte) (s : State) :
    (reqPolicySet tag body s).time = s.time ∧ (reqPolicySet tag body s).controller = s.controller ∧
    (reqPolicySet tag body s).responder = s.responder ∧ (reqPolicySet tag body s).builder = s.builder ∧
    (reqPolicySet tag body s).keeper = s.keeper ∧ (reqPolicySet tag body s).hold = s.hold ∧
    (reqPolicySet tag body s).port = s.port ∧ (reqPolicySet tag body s).counters = s.counters ∧
    (reqPolicySet tag body s).freeCount = s.freeCount ∧ (reqPolicySet tag body s).pending = s.pending := by
  unfold reqPolicySet; simp only [judged]; repeat' (first | split | dsimp only)
  all_goals simp

/-- reqNop changes only: host. -/
@[simp] theorem reqNop_keeps (tag : Byte) (body : List Byte) (s : State) :
    (reqNop tag body s).time = s.time ∧ (reqNop tag body s).controller = s.controller ∧
    (reqNop tag body s).responder = s.responder ∧ (reqNop tag body s).classifier = s.classifier ∧
    (reqNop tag body s).builder = s.builder ∧ (reqNop tag body s).keeper = s.keeper ∧
    (reqNop tag body s).hold = s.hold ∧ (reqNop tag body s).wake = s.wake ∧ (reqNop tag body s).port = s.port ∧
    (reqNop tag body s).counters = s.counters ∧ (reqNop tag body s).freeCount = s.freeCount ∧
    (reqNop tag body s).pending = s.pending := by
  unfold reqNop; simp only [judged]; repeat' (first | split | dsimp only)
  all_goals simp

/-- reqIdentityList changes only: host. -/
@[simp] theorem reqIdentityList_keeps (tag : Byte) (body : List Byte) (s : State) :
    (reqIdentityList tag body s).time = s.time ∧ (reqIdentityList tag body s).controller = s.controller ∧
    (reqIdentityList tag body s).responder = s.responder ∧
    (reqIdentityList tag body s).classifier = s.classifier ∧ (reqIdentityList tag body s).builder = s.builder ∧
    (reqIdentityList tag body s).keeper = s.keeper ∧ (reqIdentityList tag body s).hold = s.hold ∧
    (reqIdentityList tag body s).wake = s.wake ∧ (reqIdentityList tag body s).port = s.port ∧
    (reqIdentityList tag body s).counters = s.counters ∧ (reqIdentityList tag body s).freeCount = s.freeCount ∧
    (reqIdentityList tag body s).pending = s.pending := by
  unfold reqIdentityList; simp only [judged]; repeat' (first | split | dsimp only)
  all_goals simp

/-- reqRuleList changes only: host. -/
@[simp] theorem reqRuleList_keeps (tag : Byte) (body : List Byte) (s : State) :
    (reqRuleList tag body s).time = s.time ∧ (reqRuleList tag body s).controller = s.controller ∧
    (reqRuleList tag body s).responder = s.responder ∧ (reqRuleList tag body s).classifier = s.classifier ∧
    (reqRuleList tag body s).builder = s.builder ∧ (reqRuleList tag body s).keeper = s.keeper ∧
    (reqRuleList tag body s).hold = s.hold ∧ (reqRuleList tag body s).wake = s.wake ∧
    (reqRuleList tag body s).port = s.port ∧ (reqRuleList tag body s).counters = s.counters ∧
    (reqRuleList tag body s).freeCount = s.freeCount ∧ (reqRuleList tag body s).pending = s.pending := by
  unfold reqRuleList; simp only [judged]; repeat' (first | split | dsimp only)
  all_goals simp

/-- reqTemplateList changes only: host. -/
@[simp] theorem reqTemplateList_keeps (tag : Byte) (body : List Byte) (s : State) :
    (reqTemplateList tag body s).time = s.time ∧ (reqTemplateList tag body s).controller = s.controller ∧
    (reqTemplateList tag body s).responder = s.responder ∧
    (reqTemplateList tag body s).classifier = s.classifier ∧ (reqTemplateList tag body s).builder = s.builder ∧
    (reqTemplateList tag body s).keeper = s.keeper ∧ (reqTemplateList tag body s).hold = s.hold ∧
    (reqTemplateList tag body s).wake = s.wake ∧ (reqTemplateList tag body s).port = s.port ∧
    (reqTemplateList tag body s).counters = s.counters ∧ (reqTemplateList tag body s).freeCount = s.freeCount ∧
    (reqTemplateList tag body s).pending = s.pending := by
  unfold reqTemplateList; simp only [judged]; repeat' (first | split | dsimp only)
  all_goals simp

/-- reqSessionGet changes only: host. -/
@[simp] theorem reqSessionGet_keeps (tag : Byte) (body : List Byte) (s : State) :
    (reqSessionGet tag body s).time = s.time ∧ (reqSessionGet tag body s).controller = s.controller ∧
    (reqSessionGet tag body s).responder = s.responder ∧ (reqSessionGet tag body s).classifier = s.classifier ∧
    (reqSessionGet tag body s).builder = s.builder ∧ (reqSessionGet tag body s).keeper = s.keeper ∧
    (reqSessionGet tag body s).hold = s.hold ∧ (reqSessionGet tag body s).wake = s.wake ∧
    (reqSessionGet tag body s).port = s.port ∧ (reqSessionGet tag body s).counters = s.counters ∧
    (reqSessionGet tag body s).freeCount = s.freeCount ∧ (reqSessionGet tag body s).pending = s.pending := by
  unfold reqSessionGet; simp only [judged]; repeat' (first | split | dsimp only)
  all_goals simp

/-- reqPolicyGet changes only: host. -/
@[simp] theorem reqPolicyGet_keeps (tag : Byte) (body : List Byte) (s : State) :
    (reqPolicyGet tag body s).time = s.time ∧ (reqPolicyGet tag body s).controller = s.controller ∧
    (reqPolicyGet tag body s).responder = s.responder ∧ (reqPolicyGet tag body s).classifier = s.classifier ∧
    (reqPolicyGet tag body s).builder = s.builder ∧ (reqPolicyGet tag body s).keeper = s.keeper ∧
    (reqPolicyGet tag body s).hold = s.hold ∧ (reqPolicyGet tag body s).wake = s.wake ∧
    (reqPolicyGet tag body s).port = s.port ∧ (reqPolicyGet tag body s).counters = s.counters ∧
    (reqPolicyGet tag body s).freeCount = s.freeCount ∧ (reqPolicyGet tag body s).pending = s.pending := by
  unfold reqPolicyGet; simp only [judged]; repeat' (first | split | dsimp only)
  all_goals simp

/-- reqWakeRecord changes only: host. -/
@[simp] theorem reqWakeRecord_keeps (tag : Byte) (body : List Byte) (s : State) :
    (reqWakeRecord tag body s).time = s.time ∧ (reqWakeRecord tag body s).controller = s.controller ∧
    (reqWakeRecord tag body s).responder = s.responder ∧ (reqWakeRecord tag body s).classifier = s.classifier ∧
    (reqWakeRecord tag body s).builder = s.builder ∧ (reqWakeRecord tag body s).keeper = s.keeper ∧
    (reqWakeRecord tag body s).hold = s.hold ∧ (reqWakeRecord tag body s).wake = s.wake ∧
    (reqWakeRecord tag body s).port = s.port ∧ (reqWakeRecord tag body s).counters = s.counters ∧
    (reqWakeRecord tag body s).freeCount = s.freeCount ∧ (reqWakeRecord tag body s).pending = s.pending := by
  unfold reqWakeRecord; simp only [judged]; repeat' (first | split | dsimp only)
  all_goals simp

/-- reqEvidenceRead changes only: host. -/
@[simp] theorem reqEvidenceRead_keeps (tag : Byte) (body : List Byte) (s : State) :
    (reqEvidenceRead tag body s).time = s.time ∧ (reqEvidenceRead tag body s).controller = s.controller ∧
    (reqEvidenceRead tag body s).responder = s.responder ∧
    (reqEvidenceRead tag body s).classifier = s.classifier ∧ (reqEvidenceRead tag body s).builder = s.builder ∧
    (reqEvidenceRead tag body s).keeper = s.keeper ∧ (reqEvidenceRead tag body s).hold = s.hold ∧
    (reqEvidenceRead tag body s).wake = s.wake ∧ (reqEvidenceRead tag body s).port = s.port ∧
    (reqEvidenceRead tag body s).counters = s.counters ∧ (reqEvidenceRead tag body s).freeCount = s.freeCount ∧
    (reqEvidenceRead tag body s).pending = s.pending := by
  unfold reqEvidenceRead; simp only [judged]; repeat' (first | split | dsimp only)
  all_goals simp

/-- reqHoldStatus changes only: host. -/
@[simp] theorem reqHoldStatus_keeps (tag : Byte) (body : List Byte) (s : State) :
    (reqHoldStatus tag body s).time = s.time ∧ (reqHoldStatus tag body s).controller = s.controller ∧
    (reqHoldStatus tag body s).responder = s.responder ∧ (reqHoldStatus tag body s).classifier = s.classifier ∧
    (reqHoldStatus tag body s).builder = s.builder ∧ (reqHoldStatus tag body s).keeper = s.keeper ∧
    (reqHoldStatus tag body s).hold = s.hold ∧ (reqHoldStatus tag body s).wake = s.wake ∧
    (reqHoldStatus tag body s).port = s.port ∧ (reqHoldStatus tag body s).counters = s.counters ∧
    (reqHoldStatus tag body s).freeCount = s.freeCount ∧ (reqHoldStatus tag body s).pending = s.pending := by
  unfold reqHoldStatus; simp only [judged]; repeat' (first | split | dsimp only)
  all_goals simp

/-- releaseEvidence changes only: wake. -/
@[simp] theorem releaseEvidence_keeps (s : State) :
    (releaseEvidence s).time = s.time ∧ (releaseEvidence s).controller = s.controller ∧
    (releaseEvidence s).responder = s.responder ∧ (releaseEvidence s).classifier = s.classifier ∧
    (releaseEvidence s).builder = s.builder ∧ (releaseEvidence s).keeper = s.keeper ∧
    (releaseEvidence s).hold = s.hold ∧ (releaseEvidence s).port = s.port ∧ (releaseEvidence s).host = s.host ∧
    (releaseEvidence s).counters = s.counters ∧ (releaseEvidence s).freeCount = s.freeCount ∧
    (releaseEvidence s).pending = s.pending := by
  simp [releaseEvidence]

/-- reqEvidenceRelease changes only: wake host. -/
@[simp] theorem reqEvidenceRelease_keeps (tag : Byte) (body : List Byte) (s : State) :
    (reqEvidenceRelease tag body s).time = s.time ∧ (reqEvidenceRelease tag body s).controller = s.controller ∧
    (reqEvidenceRelease tag body s).responder = s.responder ∧
    (reqEvidenceRelease tag body s).classifier = s.classifier ∧
    (reqEvidenceRelease tag body s).builder = s.builder ∧ (reqEvidenceRelease tag body s).keeper = s.keeper ∧
    (reqEvidenceRelease tag body s).hold = s.hold ∧ (reqEvidenceRelease tag body s).port = s.port ∧
    (reqEvidenceRelease tag body s).counters = s.counters ∧
    (reqEvidenceRelease tag body s).freeCount = s.freeCount ∧
    (reqEvidenceRelease tag body s).pending = s.pending := by
  unfold reqEvidenceRelease; simp only [judged]; repeat' (first | split | dsimp only)
  all_goals simp

/-- reqStatusClear changes only: host counters. -/
@[simp] theorem reqStatusClear_keeps (tag : Byte) (s : State) :
    (reqStatusClear tag s).time = s.time ∧ (reqStatusClear tag s).controller = s.controller ∧
    (reqStatusClear tag s).responder = s.responder ∧ (reqStatusClear tag s).classifier = s.classifier ∧
    (reqStatusClear tag s).builder = s.builder ∧ (reqStatusClear tag s).keeper = s.keeper ∧
    (reqStatusClear tag s).hold = s.hold ∧ (reqStatusClear tag s).wake = s.wake ∧
    (reqStatusClear tag s).port = s.port ∧ (reqStatusClear tag s).freeCount = s.freeCount ∧
    (reqStatusClear tag s).pending = s.pending := by
  simp [reqStatusClear]

/-- reqStatus changes only: host counters. -/
@[simp] theorem reqStatus_keeps (tag : Byte) (body : List Byte) (s : State) :
    (reqStatus tag body s).time = s.time ∧ (reqStatus tag body s).controller = s.controller ∧
    (reqStatus tag body s).responder = s.responder ∧ (reqStatus tag body s).classifier = s.classifier ∧
    (reqStatus tag body s).builder = s.builder ∧ (reqStatus tag body s).keeper = s.keeper ∧
    (reqStatus tag body s).hold = s.hold ∧ (reqStatus tag body s).wake = s.wake ∧
    (reqStatus tag body s).port = s.port ∧ (reqStatus tag body s).freeCount = s.freeCount ∧
    (reqStatus tag body s).pending = s.pending := by
  unfold reqStatus; (repeat' split) <;> simp

/-- reqHandOver changes only: controller responder classifier keeper wake port host counters freeCount. -/
@[simp] theorem reqHandOver_keeps (tag : Byte) (body : List Byte) (s : State) :
    (reqHandOver tag body s).time = s.time ∧ (reqHandOver tag body s).builder = s.builder ∧
    (reqHandOver tag body s).hold = s.hold ∧ (reqHandOver tag body s).pending = s.pending := by
  unfold reqHandOver; simp only [judged]; repeat' (first | split | dsimp only)
  all_goals simp

/-- takeBack changes only: controller responder classifier keeper hold wake port host. -/
@[simp] theorem takeBack_keeps (tag : Byte) (outcome : WakeOutcome) (s : State) :
    (takeBack tag outcome s).time = s.time ∧ (takeBack tag outcome s).builder = s.builder ∧
    (takeBack tag outcome s).counters = s.counters ∧ (takeBack tag outcome s).freeCount = s.freeCount ∧
    (takeBack tag outcome s).pending = s.pending := by
  simp [takeBack]

/-- reqTakeBack changes only: controller responder classifier keeper hold wake port host. -/
@[simp] theorem reqTakeBack_keeps (tag : Byte) (body : List Byte) (s : State) :
    (reqTakeBack tag body s).time = s.time ∧ (reqTakeBack tag body s).builder = s.builder ∧
    (reqTakeBack tag body s).counters = s.counters ∧ (reqTakeBack tag body s).freeCount = s.freeCount ∧
    (reqTakeBack tag body s).pending = s.pending := by
  unfold reqTakeBack; simp only [judged]; repeat' (first | split | dsimp only)
  all_goals simp

/-- clearTables changes only: controller responder classifier builder keeper hold wake counters. -/
@[simp] theorem clearTables_keeps (s : State) :
    (clearTables s).time = s.time ∧ (clearTables s).port = s.port ∧ (clearTables s).host = s.host ∧
    (clearTables s).freeCount = s.freeCount ∧ (clearTables s).pending = s.pending := by
  simp [clearTables, supersedeAll]

/-- reqClearAll changes only: controller responder classifier builder keeper hold wake host counters. -/
@[simp] theorem reqClearAll_keeps (tag : Byte) (body : List Byte) (s : State) :
    (reqClearAll tag body s).time = s.time ∧ (reqClearAll tag body s).port = s.port ∧
    (reqClearAll tag body s).freeCount = s.freeCount ∧ (reqClearAll tag body s).pending = s.pending := by
  unfold reqClearAll; simp only [judged]; repeat' (first | split | dsimp only)
  all_goals simp

/-- runRequest changes only: controller responder classifier builder keeper hold wake port host counters freeCount. -/
@[simp] theorem runRequest_keeps (k : RequestKind) (tag : Byte) (body : List Byte) (s : State) :
    (runRequest k tag body s).time = s.time ∧ (runRequest k tag body s).pending = s.pending := by
  cases k <;> simp [runRequest]

/-- fallHcs changes only: host. -/
@[simp] theorem fallHcs_keeps (s : State) :
    (fallHcs s).time = s.time ∧ (fallHcs s).controller = s.controller ∧ (fallHcs s).responder = s.responder ∧
    (fallHcs s).classifier = s.classifier ∧ (fallHcs s).builder = s.builder ∧ (fallHcs s).keeper = s.keeper ∧
    (fallHcs s).hold = s.hold ∧ (fallHcs s).wake = s.wake ∧ (fallHcs s).port = s.port ∧
    (fallHcs s).counters = s.counters ∧ (fallHcs s).freeCount = s.freeCount ∧
    (fallHcs s).pending = s.pending := by
  unfold fallHcs; dsimp only; (repeat' split) <;> simp

/-- countJudgement changes only: counters. -/
@[simp] theorem countJudgement_keeps (o : FrameOutcome) (s : State) :
    (countJudgement o s).time = s.time ∧ (countJudgement o s).controller = s.controller ∧
    (countJudgement o s).responder = s.responder ∧ (countJudgement o s).classifier = s.classifier ∧
    (countJudgement o s).builder = s.builder ∧ (countJudgement o s).keeper = s.keeper ∧
    (countJudgement o s).hold = s.hold ∧ (countJudgement o s).wake = s.wake ∧
    (countJudgement o s).port = s.port ∧ (countJudgement o s).host = s.host ∧
    (countJudgement o s).freeCount = s.freeCount ∧ (countJudgement o s).pending = s.pending := by
  cases o <;> simp [countJudgement]

/-- riseUnseen changes only: host counters. -/
@[simp] theorem riseUnseen_keeps (s : State) :
    (riseUnseen s).time = s.time ∧ (riseUnseen s).controller = s.controller ∧
    (riseUnseen s).responder = s.responder ∧ (riseUnseen s).classifier = s.classifier ∧
    (riseUnseen s).builder = s.builder ∧ (riseUnseen s).keeper = s.keeper ∧ (riseUnseen s).hold = s.hold ∧
    (riseUnseen s).wake = s.wake ∧ (riseUnseen s).port = s.port ∧ (riseUnseen s).freeCount = s.freeCount ∧
    (riseUnseen s).pending = s.pending := by
  simp [riseUnseen]

/-- takeJudged changes only: controller responder classifier builder keeper hold wake port host counters freeCount. -/
@[simp] theorem takeJudged_keeps (o : FrameOutcome) (clocked : List Byte) (s : State) :
    (takeJudged o clocked s).time = s.time ∧ (takeJudged o clocked s).pending = s.pending := by
  unfold takeJudged; dsimp only; (repeat' split) <;> simp

/-- endTransaction changes only: host. -/
@[simp] theorem endTransaction_keeps (clocked : List Byte) (s : State) :
    (endTransaction clocked s).time = s.time ∧ (endTransaction clocked s).controller = s.controller ∧
    (endTransaction clocked s).responder = s.responder ∧ (endTransaction clocked s).classifier = s.classifier ∧
    (endTransaction clocked s).builder = s.builder ∧ (endTransaction clocked s).keeper = s.keeper ∧
    (endTransaction clocked s).hold = s.hold ∧ (endTransaction clocked s).wake = s.wake ∧
    (endTransaction clocked s).port = s.port ∧ (endTransaction clocked s).counters = s.counters ∧
    (endTransaction clocked s).freeCount = s.freeCount ∧ (endTransaction clocked s).pending = s.pending := by
  simp [endTransaction]

/-- riseHcs changes only: controller responder classifier builder keeper hold wake port host counters freeCount. -/
@[simp] theorem riseHcs_keeps (clocked : List Byte) (s : State) :
    (riseHcs clocked s).time = s.time ∧ (riseHcs clocked s).pending = s.pending := by
  unfold riseHcs; (repeat' split) <;> simp

/-- moveHostup changes only: wake. -/
@[simp] theorem moveHostup_keeps (high : Bool) (s : State) :
    (moveHostup high s).time = s.time ∧ (moveHostup high s).controller = s.controller ∧
    (moveHostup high s).responder = s.responder ∧ (moveHostup high s).classifier = s.classifier ∧
    (moveHostup high s).builder = s.builder ∧ (moveHostup high s).keeper = s.keeper ∧
    (moveHostup high s).hold = s.hold ∧ (moveHostup high s).port = s.port ∧ (moveHostup high s).host = s.host ∧
    (moveHostup high s).counters = s.counters ∧ (moveHostup high s).freeCount = s.freeCount ∧
    (moveHostup high s).pending = s.pending := by
  unfold moveHostup; dsimp only; (repeat' split) <;> simp

/-- filterHostup changes only: wake. -/
@[simp] theorem filterHostup_keeps (high : Bool) (s : State) :
    (filterHostup high s).time = s.time ∧ (filterHostup high s).controller = s.controller ∧
    (filterHostup high s).responder = s.responder ∧ (filterHostup high s).classifier = s.classifier ∧
    (filterHostup high s).builder = s.builder ∧ (filterHostup high s).keeper = s.keeper ∧
    (filterHostup high s).hold = s.hold ∧ (filterHostup high s).port = s.port ∧
    (filterHostup high s).host = s.host ∧ (filterHostup high s).counters = s.counters ∧
    (filterHostup high s).freeCount = s.freeCount ∧ (filterHostup high s).pending = s.pending := by
  simp [filterHostup]

/-- hostupRise changes only: wake. -/
@[simp] theorem hostupRise_keeps (s : State) :
    (hostupRise s).time = s.time ∧ (hostupRise s).controller = s.controller ∧
    (hostupRise s).responder = s.responder ∧ (hostupRise s).classifier = s.classifier ∧
    (hostupRise s).builder = s.builder ∧ (hostupRise s).keeper = s.keeper ∧ (hostupRise s).hold = s.hold ∧
    (hostupRise s).port = s.port ∧ (hostupRise s).host = s.host ∧ (hostupRise s).counters = s.counters ∧
    (hostupRise s).freeCount = s.freeCount ∧ (hostupRise s).pending = s.pending := by
  unfold hostupRise; split <;> (try split) <;> simp

/-- hostupFall changes only: controller hold wake host counters. -/
@[simp] theorem hostupFall_keeps (s : State) :
    (hostupFall s).time = s.time ∧ (hostupFall s).responder = s.responder ∧
    (hostupFall s).classifier = s.classifier ∧ (hostupFall s).builder = s.builder ∧
    (hostupFall s).keeper = s.keeper ∧ (hostupFall s).port = s.port ∧ (hostupFall s).freeCount = s.freeCount ∧
    (hostupFall s).pending = s.pending := by
  unfold hostupFall; split <;> (try split) <;> simp [stopClaim]

/-- takeRise changes only: wake. -/
@[simp] theorem takeRise_keeps (s : State) :
    (takeRise s).time = s.time ∧ (takeRise s).controller = s.controller ∧
    (takeRise s).responder = s.responder ∧ (takeRise s).classifier = s.classifier ∧
    (takeRise s).builder = s.builder ∧ (takeRise s).keeper = s.keeper ∧ (takeRise s).hold = s.hold ∧
    (takeRise s).port = s.port ∧ (takeRise s).host = s.host ∧ (takeRise s).counters = s.counters ∧
    (takeRise s).freeCount = s.freeCount ∧ (takeRise s).pending = s.pending := by
  unfold takeRise; (repeat' split) <;> simp

/-- takeFall changes only: controller hold wake host counters. -/
@[simp] theorem takeFall_keeps (s : State) :
    (takeFall s).time = s.time ∧ (takeFall s).responder = s.responder ∧
    (takeFall s).classifier = s.classifier ∧ (takeFall s).builder = s.builder ∧
    (takeFall s).keeper = s.keeper ∧ (takeFall s).port = s.port ∧ (takeFall s).freeCount = s.freeCount ∧
    (takeFall s).pending = s.pending := by
  unfold takeFall; (repeat' split) <;> simp

/-- takeRxFrame changes only: port counters. -/
@[simp] theorem takeRxFrame_keeps (f : List Byte) (s : State) :
    (takeRxFrame f s).time = s.time ∧ (takeRxFrame f s).controller = s.controller ∧
    (takeRxFrame f s).responder = s.responder ∧ (takeRxFrame f s).classifier = s.classifier ∧
    (takeRxFrame f s).builder = s.builder ∧ (takeRxFrame f s).keeper = s.keeper ∧
    (takeRxFrame f s).hold = s.hold ∧ (takeRxFrame f s).wake = s.wake ∧ (takeRxFrame f s).host = s.host ∧
    (takeRxFrame f s).freeCount = s.freeCount ∧ (takeRxFrame f s).pending = s.pending := by
  unfold takeRxFrame recordError; (repeat' split) <;> simp

/-- takeDeliverAnswer changes only: controller hold port host counters. -/
@[simp] theorem takeDeliverAnswer_keeps (s : State) :
    (takeDeliverAnswer s).time = s.time ∧ (takeDeliverAnswer s).responder = s.responder ∧
    (takeDeliverAnswer s).classifier = s.classifier ∧ (takeDeliverAnswer s).builder = s.builder ∧
    (takeDeliverAnswer s).keeper = s.keeper ∧ (takeDeliverAnswer s).wake = s.wake ∧
    (takeDeliverAnswer s).freeCount = s.freeCount ∧ (takeDeliverAnswer s).pending = s.pending := by
  simp [takeDeliverAnswer]

/-- takeLinkUp changes only: responder keeper hold port host counters. -/
@[simp] theorem takeLinkUp_keeps (s : State) :
    (takeLinkUp s).time = s.time ∧ (takeLinkUp s).controller = s.controller ∧
    (takeLinkUp s).classifier = s.classifier ∧ (takeLinkUp s).builder = s.builder ∧
    (takeLinkUp s).wake = s.wake ∧ (takeLinkUp s).freeCount = s.freeCount ∧
    (takeLinkUp s).pending = s.pending := by
  unfold takeLinkUp; (repeat' split) <;> simp

/-- takeLinkDown changes only: controller wake port host. -/
@[simp] theorem takeLinkDown_keeps (s : State) :
    (takeLinkDown s).time = s.time ∧ (takeLinkDown s).responder = s.responder ∧
    (takeLinkDown s).classifier = s.classifier ∧ (takeLinkDown s).builder = s.builder ∧
    (takeLinkDown s).keeper = s.keeper ∧ (takeLinkDown s).hold = s.hold ∧
    (takeLinkDown s).counters = s.counters ∧ (takeLinkDown s).freeCount = s.freeCount ∧
    (takeLinkDown s).pending = s.pending := by
  unfold takeLinkDown; (repeat' split) <;> simp

/-- takePortReset changes only: controller responder keeper hold wake port host counters. -/
@[simp] theorem takePortReset_keeps (s : State) :
    (takePortReset s).time = s.time ∧ (takePortReset s).classifier = s.classifier ∧
    (takePortReset s).builder = s.builder ∧ (takePortReset s).freeCount = s.freeCount ∧
    (takePortReset s).pending = s.pending := by
  unfold takePortReset; dsimp only; split <;> simp

/-- takeRecord changes only: controller responder keeper hold wake port host counters. -/
@[simp] theorem takeRecord_keeps (r : StationIn) (s : State) :
    (takeRecord r s).time = s.time ∧ (takeRecord r s).classifier = s.classifier ∧
    (takeRecord r s).builder = s.builder ∧ (takeRecord r s).freeCount = s.freeCount ∧
    (takeRecord r s).pending = s.pending := by
  cases r <;> simp [takeRecord]

/-- takeBytes changes only: controller responder keeper hold wake port host counters. -/
@[simp] theorem takeBytes_keeps (bytes : List Byte) (s : State) :
    (takeBytes bytes s).time = s.time ∧ (takeBytes bytes s).classifier = s.classifier ∧
    (takeBytes bytes s).builder = s.builder ∧ (takeBytes bytes s).freeCount = s.freeCount ∧
    (takeBytes bytes s).pending = s.pending := by
  unfold takeBytes recordError; split <;> simp

/-- dequeueFrame changes only: port counters. -/
@[simp] theorem dequeueFrame_keeps (rest : List (List Byte)) (s : State) :
    (dequeueFrame rest s).time = s.time ∧ (dequeueFrame rest s).controller = s.controller ∧
    (dequeueFrame rest s).responder = s.responder ∧ (dequeueFrame rest s).classifier = s.classifier ∧
    (dequeueFrame rest s).builder = s.builder ∧ (dequeueFrame rest s).keeper = s.keeper ∧
    (dequeueFrame rest s).hold = s.hold ∧ (dequeueFrame rest s).wake = s.wake ∧
    (dequeueFrame rest s).host = s.host ∧ (dequeueFrame rest s).freeCount = s.freeCount ∧
    (dequeueFrame rest s).pending = s.pending := by
  simp [dequeueFrame]

/-- beginClassification changes only: classifier. -/
@[simp] theorem beginClassification_keeps (f : List Byte) (s : State) :
    (beginClassification f s).time = s.time ∧ (beginClassification f s).controller = s.controller ∧
    (beginClassification f s).responder = s.responder ∧ (beginClassification f s).builder = s.builder ∧
    (beginClassification f s).keeper = s.keeper ∧ (beginClassification f s).hold = s.hold ∧
    (beginClassification f s).wake = s.wake ∧ (beginClassification f s).port = s.port ∧
    (beginClassification f s).host = s.host ∧ (beginClassification f s).counters = s.counters ∧
    (beginClassification f s).freeCount = s.freeCount ∧ (beginClassification f s).pending = s.pending := by
  simp [beginClassification]

/-- holdAtReturn changes only: controller classifier hold port host counters. -/
@[simp] theorem holdAtReturn_keeps (f : List Byte) (s : State) :
    (holdAtReturn f s).time = s.time ∧ (holdAtReturn f s).responder = s.responder ∧
    (holdAtReturn f s).builder = s.builder ∧ (holdAtReturn f s).keeper = s.keeper ∧
    (holdAtReturn f s).wake = s.wake ∧ (holdAtReturn f s).freeCount = s.freeCount ∧
    (holdAtReturn f s).pending = s.pending := by
  simp [holdAtReturn]

/-- takeFrame changes only: controller classifier hold port host counters. -/
@[simp] theorem takeFrame_keeps (s : State) :
    (takeFrame s).time = s.time ∧ (takeFrame s).responder = s.responder ∧ (takeFrame s).builder = s.builder ∧
    (takeFrame s).keeper = s.keeper ∧ (takeFrame s).wake = s.wake ∧ (takeFrame s).freeCount = s.freeCount ∧
    (takeFrame s).pending = s.pending := by
  unfold takeFrame; (repeat' split) <;> simp

/-- advance changes only: classifier. -/
@[simp] theorem advance_keeps (k : ClassStep) (s : State) :
    (advance k s).time = s.time ∧ (advance k s).controller = s.controller ∧
    (advance k s).responder = s.responder ∧ (advance k s).builder = s.builder ∧
    (advance k s).keeper = s.keeper ∧ (advance k s).hold = s.hold ∧ (advance k s).wake = s.wake ∧
    (advance k s).port = s.port ∧ (advance k s).host = s.host ∧ (advance k s).counters = s.counters ∧
    (advance k s).freeCount = s.freeCount ∧ (advance k s).pending = s.pending := by
  simp [advance]

/-- filterOut changes only: controller classifier host counters. -/
@[simp] theorem filterOut_keeps (s : State) :
    (filterOut s).time = s.time ∧ (filterOut s).responder = s.responder ∧ (filterOut s).builder = s.builder ∧
    (filterOut s).keeper = s.keeper ∧ (filterOut s).hold = s.hold ∧ (filterOut s).wake = s.wake ∧
    (filterOut s).port = s.port ∧ (filterOut s).freeCount = s.freeCount ∧
    (filterOut s).pending = s.pending := by
  simp [filterOut]

/-- filterStep changes only: controller classifier host counters. -/
@[simp] theorem filterStep_keeps (ok : Bool) (next : ClassStep) (s : State) :
    (filterStep ok next s).time = s.time ∧ (filterStep ok next s).responder = s.responder ∧
    (filterStep ok next s).builder = s.builder ∧ (filterStep ok next s).keeper = s.keeper ∧
    (filterStep ok next s).hold = s.hold ∧ (filterStep ok next s).wake = s.wake ∧
    (filterStep ok next s).port = s.port ∧ (filterStep ok next s).freeCount = s.freeCount ∧
    (filterStep ok next s).pending = s.pending := by
  unfold filterStep; (repeat' split) <;> simp

/-- stepSession changes only: controller classifier keeper hold wake port host counters freeCount. -/
@[simp] theorem stepSession_keeps (c : Classification) (s : State) :
    (stepSession c s).time = s.time ∧ (stepSession c s).responder = s.responder ∧
    (stepSession c s).builder = s.builder ∧ (stepSession c s).pending = s.pending := by
  unfold stepSession; (repeat' split) <;> simp

/-- stepResponder changes only: controller responder classifier keeper wake port host counters freeCount. -/
@[simp] theorem stepResponder_keeps (c : Classification) (s : State) :
    (stepResponder c s).time = s.time ∧ (stepResponder c s).builder = s.builder ∧
    (stepResponder c s).hold = s.hold ∧ (stepResponder c s).pending = s.pending := by
  unfold stepResponder; (repeat' split) <;> simp

/-- holdFor changes only: controller classifier hold wake port host counters freeCount. -/
@[simp] theorem holdFor_keeps (source : HoldSource) (own : List Report) (f : List Byte) (s : State) :
    (holdFor source own f s).time = s.time ∧ (holdFor source own f s).responder = s.responder ∧
    (holdFor source own f s).builder = s.builder ∧ (holdFor source own f s).keeper = s.keeper ∧
    (holdFor source own f s).pending = s.pending := by
  simp [holdFor]

/-- offerAnswer changes only: controller classifier port host counters. -/
@[simp] theorem offerAnswer_keeps (answer : List Byte) (s : State) :
    (offerAnswer answer s).time = s.time ∧ (offerAnswer answer s).responder = s.responder ∧
    (offerAnswer answer s).builder = s.builder ∧ (offerAnswer answer s).keeper = s.keeper ∧
    (offerAnswer answer s).hold = s.hold ∧ (offerAnswer answer s).wake = s.wake ∧
    (offerAnswer answer s).freeCount = s.freeCount ∧ (offerAnswer answer s).pending = s.pending := by
  simp [offerAnswer]

/-- runEcho changes only: controller classifier port host counters. -/
@[simp] theorem runEcho_keeps (f : List Byte) (s : State) :
    (runEcho f s).time = s.time ∧ (runEcho f s).responder = s.responder ∧ (runEcho f s).builder = s.builder ∧
    (runEcho f s).keeper = s.keeper ∧ (runEcho f s).hold = s.hold ∧ (runEcho f s).wake = s.wake ∧
    (runEcho f s).freeCount = s.freeCount ∧ (runEcho f s).pending = s.pending := by
  unfold runEcho; (repeat' split) <;> simp

/-- runTemplate changes only: controller classifier builder port host counters. -/
@[simp] theorem runTemplate_keeps (t : Nat) (f : List Byte) (s : State) :
    (runTemplate t f s).time = s.time ∧ (runTemplate t f s).responder = s.responder ∧
    (runTemplate t f s).keeper = s.keeper ∧ (runTemplate t f s).hold = s.hold ∧
    (runTemplate t f s).wake = s.wake ∧ (runTemplate t f s).freeCount = s.freeCount ∧
    (runTemplate t f s).pending = s.pending := by
  unfold runTemplate; (repeat' split) <;> simp

/-- runAction changes only: controller classifier builder hold wake port host counters freeCount. -/
@[simp] theorem runAction_keeps (a : RuleAction) (n : Nat) (f : List Byte) (s : State) :
    (runAction a n f s).time = s.time ∧ (runAction a n f s).responder = s.responder ∧
    (runAction a n f s).keeper = s.keeper ∧ (runAction a n f s).pending = s.pending := by
  cases a <;> simp [runAction]

/-- runRule changes only: controller classifier builder hold wake port host counters freeCount. -/
@[simp] theorem runRule_keeps (r : Rule) (place : Option Nat) (n : Nat) (f : List Byte) (s : State) :
    (runRule r place n f s).time = s.time ∧ (runRule r place n f s).responder = s.responder ∧
    (runRule r place n f s).keeper = s.keeper ∧ (runRule r place n f s).pending = s.pending := by
  unfold runRule; (repeat' split) <;> simp

/-- stepRule changes only: controller classifier builder hold wake port host counters freeCount. -/
@[simp] theorem stepRule_keeps (c : Classification) (s : State) :
    (stepRule c s).time = s.time ∧ (stepRule c s).responder = s.responder ∧ (stepRule c s).keeper = s.keeper ∧
    (stepRule c s).pending = s.pending := by
  unfold stepRule; (repeat' split) <;> simp

/-- stepDefault changes only: controller classifier hold wake port host counters freeCount. -/
@[simp] theorem stepDefault_keeps (c : Classification) (s : State) :
    (stepDefault c s).time = s.time ∧ (stepDefault c s).responder = s.responder ∧
    (stepDefault c s).builder = s.builder ∧ (stepDefault c s).keeper = s.keeper ∧
    (stepDefault c s).pending = s.pending := by
  unfold stepDefault; split <;> simp

/-- expirePeriod changes only: responder classifier. -/
@[simp] theorem expirePeriod_keeps (c : PeriodClass) (s : State) :
    (expirePeriod c s).time = s.time ∧ (expirePeriod c s).controller = s.controller ∧
    (expirePeriod c s).builder = s.builder ∧ (expirePeriod c s).keeper = s.keeper ∧
    (expirePeriod c s).hold = s.hold ∧ (expirePeriod c s).wake = s.wake ∧ (expirePeriod c s).port = s.port ∧
    (expirePeriod c s).host = s.host ∧ (expirePeriod c s).counters = s.counters ∧
    (expirePeriod c s).freeCount = s.freeCount ∧ (expirePeriod c s).pending = s.pending := by
  unfold expirePeriod zeroBudgets; dsimp only; split <;> simp

/-- takePeriod changes only: responder classifier. -/
@[simp] theorem takePeriod_keeps (c : PeriodClass) (s : State) :
    (takePeriod c s).time = s.time ∧ (takePeriod c s).controller = s.controller ∧
    (takePeriod c s).builder = s.builder ∧ (takePeriod c s).keeper = s.keeper ∧
    (takePeriod c s).hold = s.hold ∧ (takePeriod c s).wake = s.wake ∧ (takePeriod c s).port = s.port ∧
    (takePeriod c s).host = s.host ∧ (takePeriod c s).counters = s.counters ∧
    (takePeriod c s).freeCount = s.freeCount ∧ (takePeriod c s).pending = s.pending := by
  unfold takePeriod; (repeat' split) <;> simp

/-- reportLease changes only: controller responder wake host. -/
@[simp] theorem reportLease_keeps (i : Nat) (s : State) :
    (reportLease i s).time = s.time ∧ (reportLease i s).classifier = s.classifier ∧
    (reportLease i s).builder = s.builder ∧ (reportLease i s).keeper = s.keeper ∧
    (reportLease i s).hold = s.hold ∧ (reportLease i s).port = s.port ∧
    (reportLease i s).counters = s.counters ∧ (reportLease i s).freeCount = s.freeCount ∧
    (reportLease i s).pending = s.pending := by
  simp [reportLease]

/-- takeMargin changes only: controller responder wake host. -/
@[simp] theorem takeMargin_keeps (i : Nat) (s : State) :
    (takeMargin i s).time = s.time ∧ (takeMargin i s).classifier = s.classifier ∧
    (takeMargin i s).builder = s.builder ∧ (takeMargin i s).keeper = s.keeper ∧
    (takeMargin i s).hold = s.hold ∧ (takeMargin i s).port = s.port ∧ (takeMargin i s).counters = s.counters ∧
    (takeMargin i s).freeCount = s.freeCount ∧ (takeMargin i s).pending = s.pending := by
  unfold takeMargin; (repeat' split) <;> simp

/-- expireEntry changes only: controller responder keeper wake host. -/
@[simp] theorem expireEntry_keeps (i : Nat) (e : IdentityEntry) (s : State) :
    (expireEntry i e s).time = s.time ∧ (expireEntry i e s).classifier = s.classifier ∧
    (expireEntry i e s).builder = s.builder ∧ (expireEntry i e s).hold = s.hold ∧
    (expireEntry i e s).port = s.port ∧ (expireEntry i e s).counters = s.counters ∧
    (expireEntry i e s).freeCount = s.freeCount ∧ (expireEntry i e s).pending = s.pending := by
  unfold expireEntry; dsimp only; (repeat' split) <;> simp

/-- takeLeaseDeadline changes only: controller responder keeper wake host. -/
@[simp] theorem takeLeaseDeadline_keeps (i : Nat) (s : State) :
    (takeLeaseDeadline i s).time = s.time ∧ (takeLeaseDeadline i s).classifier = s.classifier ∧
    (takeLeaseDeadline i s).builder = s.builder ∧ (takeLeaseDeadline i s).hold = s.hold ∧
    (takeLeaseDeadline i s).port = s.port ∧ (takeLeaseDeadline i s).counters = s.counters ∧
    (takeLeaseDeadline i s).freeCount = s.freeCount ∧ (takeLeaseDeadline i s).pending = s.pending := by
  unfold takeLeaseDeadline; (repeat' split) <;> simp

/-- takeReportDeadline changes only: responder port counters. -/
@[simp] theorem takeReportDeadline_keeps (i : Nat) (s : State) :
    (takeReportDeadline i s).time = s.time ∧ (takeReportDeadline i s).controller = s.controller ∧
    (takeReportDeadline i s).classifier = s.classifier ∧ (takeReportDeadline i s).builder = s.builder ∧
    (takeReportDeadline i s).keeper = s.keeper ∧ (takeReportDeadline i s).hold = s.hold ∧
    (takeReportDeadline i s).wake = s.wake ∧ (takeReportDeadline i s).host = s.host ∧
    (takeReportDeadline i s).freeCount = s.freeCount ∧ (takeReportDeadline i s).pending = s.pending := by
  unfold takeReportDeadline; (repeat' split) <;> simp

/-- takeDue changes only: keeper port counters. -/
@[simp] theorem takeDue_keeps (i : Nat) (s : State) :
    (takeDue i s).time = s.time ∧ (takeDue i s).controller = s.controller ∧
    (takeDue i s).responder = s.responder ∧ (takeDue i s).classifier = s.classifier ∧
    (takeDue i s).builder = s.builder ∧ (takeDue i s).hold = s.hold ∧ (takeDue i s).wake = s.wake ∧
    (takeDue i s).host = s.host ∧ (takeDue i s).freeCount = s.freeCount ∧
    (takeDue i s).pending = s.pending := by
  unfold takeDue; (repeat' split) <;> simp

/-- takeProbeTimer changes only: controller keeper wake port host counters. -/
@[simp] theorem takeProbeTimer_keeps (i : Nat) (s : State) :
    (takeProbeTimer i s).time = s.time ∧ (takeProbeTimer i s).responder = s.responder ∧
    (takeProbeTimer i s).classifier = s.classifier ∧ (takeProbeTimer i s).builder = s.builder ∧
    (takeProbeTimer i s).hold = s.hold ∧ (takeProbeTimer i s).freeCount = s.freeCount ∧
    (takeProbeTimer i s).pending = s.pending := by
  unfold takeProbeTimer; (repeat' split) <;> simp

/-- startGap changes only: wake. -/
@[simp] theorem startGap_keeps (s : State) :
    (startGap s).time = s.time ∧ (startGap s).controller = s.controller ∧
    (startGap s).responder = s.responder ∧ (startGap s).classifier = s.classifier ∧
    (startGap s).builder = s.builder ∧ (startGap s).keeper = s.keeper ∧ (startGap s).hold = s.hold ∧
    (startGap s).port = s.port ∧ (startGap s).host = s.host ∧ (startGap s).counters = s.counters ∧
    (startGap s).freeCount = s.freeCount ∧ (startGap s).pending = s.pending := by
  simp [startGap]

/-- takeResponse changes only: wake. -/
@[simp] theorem takeResponse_keeps (s : State) :
    (takeResponse s).time = s.time ∧ (takeResponse s).controller = s.controller ∧
    (takeResponse s).responder = s.responder ∧ (takeResponse s).classifier = s.classifier ∧
    (takeResponse s).builder = s.builder ∧ (takeResponse s).keeper = s.keeper ∧
    (takeResponse s).hold = s.hold ∧ (takeResponse s).port = s.port ∧ (takeResponse s).host = s.host ∧
    (takeResponse s).counters = s.counters ∧ (takeResponse s).freeCount = s.freeCount ∧
    (takeResponse s).pending = s.pending := by
  unfold takeResponse; (repeat' split) <;> simp

/-- giveUp changes only: controller wake host. -/
@[simp] theorem giveUp_keeps (s : State) :
    (giveUp s).time = s.time ∧ (giveUp s).responder = s.responder ∧ (giveUp s).classifier = s.classifier ∧
    (giveUp s).builder = s.builder ∧ (giveUp s).keeper = s.keeper ∧ (giveUp s).hold = s.hold ∧
    (giveUp s).port = s.port ∧ (giveUp s).counters = s.counters ∧ (giveUp s).freeCount = s.freeCount ∧
    (giveUp s).pending = s.pending := by
  simp [giveUp]

/-- endGap changes only: controller wake host. -/
@[simp] theorem endGap_keeps (s : State) :
    (endGap s).time = s.time ∧ (endGap s).responder = s.responder ∧ (endGap s).classifier = s.classifier ∧
    (endGap s).builder = s.builder ∧ (endGap s).keeper = s.keeper ∧ (endGap s).hold = s.hold ∧
    (endGap s).port = s.port ∧ (endGap s).counters = s.counters ∧ (endGap s).freeCount = s.freeCount ∧
    (endGap s).pending = s.pending := by
  unfold endGap; (repeat' split) <;> simp

/-- takeGap changes only: controller wake host. -/
@[simp] theorem takeGap_keeps (s : State) :
    (takeGap s).time = s.time ∧ (takeGap s).responder = s.responder ∧ (takeGap s).classifier = s.classifier ∧
    (takeGap s).builder = s.builder ∧ (takeGap s).keeper = s.keeper ∧ (takeGap s).hold = s.hold ∧
    (takeGap s).port = s.port ∧ (takeGap s).counters = s.counters ∧ (takeGap s).freeCount = s.freeCount ∧
    (takeGap s).pending = s.pending := by
  unfold takeGap; (repeat' split) <;> simp

/-- takeClaim changes only: controller responder classifier keeper hold wake port host. -/
@[simp] theorem takeClaim_keeps (s : State) :
    (takeClaim s).time = s.time ∧ (takeClaim s).builder = s.builder ∧ (takeClaim s).counters = s.counters ∧
    (takeClaim s).freeCount = s.freeCount ∧ (takeClaim s).pending = s.pending := by
  unfold takeClaim; (repeat' split) <;> simp

end Sys2Proof.Machine
end

