-- ==== Sys2Proof/Laws/Settle.lean ====
section
/-! SUPPORT. What a classification's step reads where no edit has met it, and how it settles its frame in a stand-in: by a disposition, an
answer or a hold. -/

namespace Sys2Proof.Machine

open Sys2Proof

/-! What the classification reads. -/

theorem entriesRead_eq (s : State) (h : nothingSuperseded s) : entriesRead s = s.responder.entries := by
  simp [entriesRead, show superseded s = noneSuperseded from h, noneSuperseded, putBack]

theorem sessionsRead_eq (s : State) (h : nothingSuperseded s) : sessionsRead s = s.keeper.sessions := by
  simp [sessionsRead, show superseded s = noneSuperseded from h, noneSuperseded, putBack]

theorem templatesRead_eq (s : State) (h : nothingSuperseded s) : templatesRead s = s.builder.templates := by
  simp [templatesRead, show superseded s = noneSuperseded from h, noneSuperseded, putBack]

theorem policyRead_eq (s : State) (h : nothingSuperseded s) : policyRead s = s.wake.policy := by
  simp [policyRead, show superseded s = noneSuperseded from h, noneSuperseded]

/-- What the classification reads of edited items depends on the frame in classification alone. -/
theorem superseded_of_current {s t : State} (h : t.classifier.current = s.classifier.current) :
    superseded t = superseded s := by
  simp [superseded, h]

theorem nothingSuperseded_of_current {s t : State} (h : t.classifier.current = s.classifier.current)
    (hs : nothingSuperseded s) : nothingSuperseded t := by
  rw [nothingSuperseded, superseded_of_current h]; exact hs

theorem touchEntry_eq (i : Nat) (f : IdentityEntry → IdentityEntry) (s : State) (h : nothingSuperseded s) :
    touchEntry i f s = modifyEntry i f s := by
  simp [touchEntry, modifyEntry, show superseded s = noneSuperseded from h, noneSuperseded, isSuperseded]

theorem touchSession_eq (i : Nat) (f : Session → Session) (s : State) (h : nothingSuperseded s) :
    touchSession i f s = modifySession i f s := by
  simp [touchSession, modifySession, show superseded s = noneSuperseded from h, noneSuperseded, isSuperseded]

theorem touchTemplate_eq (i : Nat) (f : Template → Template) (s : State) (h : nothingSuperseded s) :
    touchTemplate i f s = { s with builder := { s.builder with templates := modifyAt s.builder.templates i f } } := by
  simp [touchTemplate, show superseded s = noneSuperseded from h, noneSuperseded, isSuperseded]

theorem cedeEntry_eq (i : Nat) (s : State) (h : nothingSuperseded s) :
    cedeEntry i s = leaveActive i (modifyEntry i (fun e => e.leave .ceded) s) := by
  simp [cedeEntry, show superseded s = noneSuperseded from h, noneSuperseded, isSuperseded]

/-! Tables. -/

theorem getElem?_of_lookup {α : Type} {l : List (Option α)} {i : Nat} {x : α} (h : lookup l i = some x) :
    l[i]? = some (some x) := by
  simp only [lookup, List.getD] at h
  cases hh : l[i]? <;> simp_all

theorem modifyAt_eq_set {α : Type} {l : List (Option α)} {i : Nat} {x : α} (h : lookup l i = some x) (f : α → α) :
    modifyAt l i f = l.set i (some (f x)) := by
  have h1 := getElem?_of_lookup h
  apply List.ext_getElem?
  intro j
  simp only [modifyAt, List.getElem?_modify, List.getElem?_set]
  by_cases hj : i = j
  · subst hj
    obtain ⟨hlt, hx⟩ := List.getElem?_eq_some_iff.mp h1
    simp [hlt, hx]
  · simp [hj]

theorem lookup_of_mem_occupied {α : Type} {l : List (Option α)} {p : Nat × α} (h : p ∈ occupied l) :
    lookup l p.1 = some p.2 := by
  obtain ⟨i, x⟩ := p
  simp only [occupied, List.mem_filterMap, List.mem_zipIdx_iff_getElem?] at h
  obtain ⟨q, h1, h2⟩ := h
  obtain ⟨a, b⟩ := q
  cases a with
  | none => simp at h2
  | some a =>
    simp only [Option.map_some, Option.some.injEq, Prod.mk.injEq] at h2
    simp [lookup, List.getD, ← h2.1, ← h2.2, h1]

theorem mem_occupied {α : Type} {l : List (Option α)} {i : Nat} {x : α} (h : lookup l i = some x) :
    (i, x) ∈ occupied l := by
  simp only [occupied, List.mem_filterMap, List.mem_zipIdx_iff_getElem?]
  exact ⟨(some x, i), getElem?_of_lookup h, rfl⟩

/-- A table with an item written reads as it and, elsewhere, as before. -/
theorem lookup_set {α : Type} {l : List (Option α)} {i : Nat} {x y : α} (h : lookup l i = some x) (j : Nat) :
    lookup (l.set i (some y)) j = if i = j then some y else lookup l j := by
  obtain ⟨hlt, _⟩ := List.getElem?_eq_some_iff.mp (getElem?_of_lookup h)
  by_cases hj : i = j
  · subst hj; simp [lookup, List.getD, hlt]
  · simp [lookup, List.getD, hj]

/-! What a match found in a table stands there. -/

theorem lookup_of_activeEntry {entries : List (Option IdentityEntry)} {k : EntryKind} {v i : Nat} {a : Addr}
    {e : IdentityEntry} (h : activeEntry entries k v a = some (i, e)) : lookup entries i = some e :=
  lookup_of_mem_occupied (p := (i, e)) (List.mem_of_find?_eq_some h)

theorem lookup_of_arpTarget {entries : List (Option IdentityEntry)} {f : List Byte} {i : Nat} {e : IdentityEntry}
    (h : arpTarget entries f = some (i, e)) : lookup entries i = some e := by
  simp only [arpTarget] at h
  split at h <;> (try split at h) <;> (try split at h) <;> simp at h
  subst h; exact lookup_of_activeEntry (by assumption)

theorem lookup_of_solicitedEntry {entries : List (Option IdentityEntry)} {f : List Byte} {ip : IpFields} {i : Nat}
    {e : IdentityEntry} (h : solicitedEntry entries f ip = some (i, e)) : lookup entries i = some e := by
  simp only [solicitedEntry] at h
  split at h <;> (try split at h) <;> simp at h
  subst h; exact lookup_of_activeEntry (by assumption)

theorem lookup_of_arpConflict {entries : List (Option IdentityEntry)} {f : List Byte} {i : Nat} {e : IdentityEntry}
    (h : arpConflict entries f = some (i, e)) : lookup entries i = some e := by
  simp only [arpConflict] at h
  split at h <;> (try split at h) <;> simp at h
  subst h; exact lookup_of_activeEntry (by assumption)

theorem lookup_of_advertConflict {entries : List (Option IdentityEntry)} {f : List Byte} {ip : IpFields} {i : Nat}
    {e : IdentityEntry} (h : advertConflict entries f ip = some (i, e)) : lookup entries i = some e := by
  simp only [advertConflict] at h
  split at h <;> (try split at h) <;> simp at h
  subst h; exact lookup_of_activeEntry (by assumption)

theorem lookup_of_sessionMatch {entries : List (Option IdentityEntry)} {sessions : List (Option Session)}
    {live : Session → Bool} {f : List Byte} {i : Nat} {x : Session}
    (h : sessionMatch entries sessions live f = some (i, x)) : lookup sessions i = some x ∧ live x = true := by
  simp only [sessionMatch] at h
  split at h
  · simp at h
  · split at h
    · refine ⟨lookup_of_mem_occupied (p := (i, x)) (List.mem_of_find?_eq_some h), ?_⟩
      have := List.find?_some h
      simp only [Bool.and_eq_true] at this
      exact this.1.1.1.1
    · simp at h

/-! Settling. -/

/-- The end of a return comes in RETURNING only (R21). -/
theorem checkDrained_serving (s : State) (h : s.controller.standIn.serving = true) : checkDrained s = s := by
  have : s.controller.standIn ≠ .returning := by intro e; simp [e, StandIn.serving] at h
  simp [checkDrained, drainComplete, this]

theorem settle_eq (d : Disposition) (s : State) : settle d s = checkDrained (settled d s) := rfl

theorem settle_serving (d : Disposition) (s : State) (h : s.controller.standIn.serving = true) :
    settle d s = settled d s := checkDrained_serving _ h

/-- An answer or an ACK offered (R12, R153). -/
theorem offerTx_eq_offered (kind : TxKind) (frame : List Byte) (s : State) (hk : kind = .answer ∨ kind = .ack) :
    offerTx kind .untold frame s = offered kind frame s := by
  by_cases h : s.controller.standIn.serving = true <;> rcases hk with rfl | rfl <;>
    by_cases hq : s.port.txQueue.length < 8 <;> simp [offerTx, offerResult, h, hq, offered, sendRecord, count]

/-- A cause reported outside a stand-in is recorded nowhere (R129). -/
theorem reportCause_carried (r : Report) (s : State) (h : s.controller.standIn.serving = false) :
    reportCause r s = s := by
  simp [reportCause, h]

theorem reported_carried (own : Option Report) (s : State) (h : s.controller.standIn.serving = false) :
    reported own s = s := by
  cases own with
  | none => rfl
  | some r => exact reportCause_carried r s h

/-- Nothing but the disposition counter and the frame in classification is settled, so a report may come before or
after. -/
theorem reportCause_settled (r : Report) (d : Disposition) (u : State) :
    settled d (reportCause r u) = reportCause r (settled d u) := by
  by_cases h : u.controller.standIn.serving = true
  · by_cases h2 : (causeEnabled u.wake r.cause && u.controller.standIn == .standing) = true
    · simp only [reportCause, settled, h, h2, if_true]
      simp only [enterCalling, beginCalling, changeState, queueNotice, stateNotice, startClaim, startAttempt, startTimer]
      split <;> (try split) <;> (try split) <;> simp_all
    · simp [reportCause, settled, h, h2]
  · simp only [reportCause, settled, h, Bool.false_eq_true, if_false]

/-- A report leaves a stand-in a stand-in (R131). -/
theorem reportCause_serving (r : Report) (s : State) (h : s.controller.standIn.serving = true) :
    (reportCause r s).controller.standIn.serving = true := by
  simp only [reportCause, h, if_true]
  split
  · simp [enterCalling, changeState, StandIn.serving]
  · exact h

theorem reportAll_serving (rs : List Report) (s : State) (h : s.controller.standIn.serving = true) :
    (reportAll rs s).controller.standIn.serving = true := by
  induction rs generalizing s with
  | nil => exact h
  | cons r rs ih => exact ih _ (reportCause_serving r s h)

theorem reportAll_settled (rs : List Report) (d : Disposition) (u : State) :
    settled d (reportAll rs u) = reportAll rs (settled d u) := by
  induction rs generalizing u with
  | nil => rfl
  | cons r rs ih =>
    simp only [reportAll, List.foldl_cons] at ih ⊢
    rw [ih, reportCause_settled]

/-- One block's report at an event is simply made. -/
theorem reportTwo_none (own : Option Report) (s : State) : reportTwo [] own.toList s = reported own s := by
  cases own <;> rfl

/-- The reports of a step and then its settlement, in a stand-in: the settlement may be said first. -/
theorem settle_reportTwo (d : Disposition) (xs ys : List Report) (s : State)
    (h : s.controller.standIn.serving = true) : settle d (reportTwo xs ys s) = reportTwo xs ys (settled d s) := by
  rw [settle_serving]
  · exact reportAll_settled _ _ _
  · exact reportAll_serving _ _ h

/-! Holds. -/

theorem serving_not_attended {st : StandIn} (h : st.serving = true) : st ≠ .attended := by
  intro e; simp [e, StandIn.serving] at h

theorem serving_not_returning {st : StandIn} (h : st.serving = true) : st ≠ .returning := by
  intro e; simp [e, StandIn.serving] at h

/-- A hold accepted in a stand-in displaces as many records as the hold buffer decides (R115 to R117). -/
theorem holdDecision_accepted (s : State) (len m : Nat) (hs : s.controller.standIn.serving = true)
    (hp : policyRead s = s.wake.policy) (h : HoldAccepted s len m) : holdDecision s len = some m := by
  simp only [holdDecision, serving_not_attended hs, if_false, hs, true_and, hp]
  rcases h with ⟨rfl, h⟩ | ⟨h1, h2, h3, h4, h5⟩
  · split
    · simp [displacement, List.range_succ_eq_map, dropUnkept, h]
    · simp
  · rw [if_pos h1, displacement, List.find?_range_eq_some]
    exact ⟨h4, List.mem_range.mpr (by omega), fun k hk => by simp [h5 k hk]⟩

/-- A hold refused in a stand-in (R115 to R117). -/
theorem holdDecision_refused (s : State) (len : Nat) (hs : s.controller.standIn.serving = true)
    (hp : policyRead s = s.wake.policy) (h : HoldRefused s len) : holdDecision s len = none := by
  simp only [holdDecision, serving_not_attended hs, if_false, hs, true_and, hp]
  obtain ⟨h1, h2⟩ := h
  rcases h2 with h2 | h2
  · simp [h2, h1]
  · split
    · simp only [displacement, List.find?_eq_none, List.mem_range]
      intro m hm; simp [h2 m (by omega)]
    · simp [h1]

/-- A request for a hold that a stand-in accepts (R115). -/
theorem requestHold_accepted (frame : List Byte) (source : HoldSource) (kept : Bool) (m : Nat) (s : State)
    (hs : s.controller.standIn.serving = true) (hp : policyRead s = s.wake.policy)
    (h : HoldAccepted s frame.length m) :
    requestHold frame source kept s =
      { state :=
          { s with hold := holding s frame source kept m, counters := s.counters.add .displaced m }
        accepted := true
        rose := s.hold.level == .below && (holding s frame source kept m).level == .above } := by
  simp [requestHold, holdDecision_accepted s _ m hs hp h, acceptHold, sendingStep, serving_not_returning hs, count,
    updateLevel, heldRecord, holding, hs]

/-- A request for a hold that a stand-in refuses (R115). -/
theorem requestHold_refused (frame : List Byte) (source : HoldSource) (kept : Bool) (s : State)
    (hs : s.controller.standIn.serving = true) (hp : policyRead s = s.wake.policy) (h : HoldRefused s frame.length) :
    requestHold frame source kept s =
      { state := { s with counters := s.counters.add .holdRefused 1 }, accepted := false, rose := false } := by
  simp [requestHold, holdDecision_refused s _ hs hp h, count]

/-- HOLD_HIGH of an accepted hold, with at most one report of the requester (R120, R132). -/
theorem reportTwo_high (own : Option Report) (s : State) :
    (own = none → reportTwo [highReport] own.toList s = reportCause highReport s)
      ∧ ∀ r, own = some r → ∃ n,
          reportTwo [highReport] own.toList s = reportCause r (reportCause highReport { s with freeCount := n })
            ∨ reportTwo [highReport] own.toList s =
                reportCause highReport (reportCause r { s with freeCount := n }) := by
  refine ⟨?_, ?_⟩
  · rintro rfl; rfl
  · rintro r rfl
    refine ⟨s.freeCount + 1, ?_⟩
    by_cases h : Config.reportOrder s.freeCount = true
    · left; simp [reportTwo, mergeReports, h, reportAll]
    · right; simp [reportTwo, mergeReports, h, reportAll]

/-- A step of a stand-in that requests a hold, makes the reports and settles its frame is as SettledByHold says. -/
theorem settledByHold_of (frame : List Byte) (source : HoldSource) (kept : Bool) (own : Option Report)
    (u : Bool → State) (t : State) (hs : ∀ b, (u b).controller.standIn.serving = true)
    (ha : ∀ m, HoldAccepted (u true) frame.length m →
      t =
        settle .held
          (reportTwo
            (if (u true).hold.level == .below && (holding (u true) frame source kept m).level == .above then
              [highReport] else [])
            own.toList
            { u true with
              hold := holding (u true) frame source kept m, counters := (u true).counters.add .displaced m }))
    (hr : HoldRefused (u false) frame.length →
      t =
        settle .discarded
          (reportTwo [] own.toList { u false with counters := (u false).counters.add .holdRefused 1 })) :
    SettledByHold frame source kept own u t := by
  refine ⟨fun m hm => ?_, fun h => ?_⟩
  · have h1 := ha m hm
    rw [settle_reportTwo] at h1
    swap
    · exact hs true
    refine ⟨fun h2 => ?_, fun h2 h3 => ?_⟩
    · rw [if_neg] at h1
      · rw [h1, reportTwo_none]
      · rcases h2 with h2 | h2
        · simp [h2]
        · intro h4
          simp only [Bool.and_eq_true, beq_iff_eq] at h4
          rw [show (holding (u true) frame source kept m).level = .below from h2] at h4
          simp at h4
    · rw [if_pos] at h1
      · rw [h1]; exact reportTwo_high _ _
      · simp only [Bool.and_eq_true, beq_iff_eq]; exact ⟨h2, h3⟩
  · rw [hr h, settle_reportTwo, reportTwo_none]
    exact hs false

/-- A hold requested in RETURNING and accepted: the sending step follows, and no level is reported (R115, R120). -/
theorem requestHold_returning (frame : List Byte) (source : HoldSource) (kept : Bool) (s : State)
    (hs : s.controller.standIn = .returning) (h : fits s.hold.queue frame.length = true) :
    requestHold frame source kept s =
      { state :=
          sendingStep { s with hold := holding s frame source kept 0, counters := s.counters.add .displaced 0 }
        accepted := true
        rose := false } := by
  have hd : holdDecision s frame.length = some 0 := by simp [holdDecision, hs, StandIn.serving, h]
  simp [requestHold, hd, acceptHold, updateLevel, heldRecord, holding, dropUnkept, count, hs, StandIn.serving]

/-- A hold requested of a classification carried over and refused (R77, R115). -/
theorem requestHold_turnedAway (frame : List Byte) (source : HoldSource) (kept : Bool) (s : State)
    (h : s.controller.standIn = .attended
      ∨ (s.controller.standIn = .returning ∧ fits s.hold.queue frame.length = false)) :
    requestHold frame source kept s =
      { state := { s with counters := s.counters.add .holdRefused 1 }, accepted := false, rose := false } := by
  have hd : holdDecision s frame.length = none := by
    rcases h with h | ⟨h1, h2⟩ <;> simp_all [holdDecision, StandIn.serving]
  simp [requestHold, hd, count]

theorem markInFlight_ne_nil (n : Nat) (q : List HeldFrame) (h : q ≠ []) : markInFlight n q ≠ [] := by
  cases n <;> cases q <;> simp_all [markInFlight]
  split <;> simp

/-- A step of a carried-over classification that requests a hold and settles its frame is as CarriedHold says. -/
theorem carriedHold_of (frame : List Byte) (source : HoldSource) (kept : Bool) (u : Bool → State) (t : State)
    (ha : (u true).controller.standIn = .returning → fits (u true).hold.queue frame.length = true →
      t =
        settle .held
          (sendingStep
            { u true with
              hold := holding (u true) frame source kept 0, counters := (u true).counters.add .displaced 0 }))
    (hr : ((u false).controller.standIn = .attended
        ∨ ((u false).controller.standIn = .returning ∧ fits (u false).hold.queue frame.length = false)) →
      t = settle .discarded { u false with counters := (u false).counters.add .holdRefused 1 }) :
    CarriedHold frame source kept u t := by
  refine ⟨fun h1 h2 => ?_, hr⟩
  rw [ha h1 h2, settle_eq, checkDrained, if_neg]
  have hq : (holding (u true) frame source kept 0).queue ≠ [] := by simp [holding]
  by_cases hl : (u true).port.linkUp = true
  · simp [drainComplete, sendingStep, h1, hl, settled, markInFlight_ne_nil _ _ hq]
  · simp [drainComplete, sendingStep, h1, hl, settled, hq]

/-- A hold that a rule or the default action asks for, with no edit since the taking (R68, R71, R74, R77). -/
theorem holdFor_settles (source : HoldSource) (own : Option Report) (f : List Byte) (s : State)
    (hn : nothingSuperseded s) :
    HoldSettles f source false own (fun _ => s) (holdFor source own.toList f s) := by
  have hq := policyRead_eq s hn
  refine ⟨fun hs => settledByHold_of _ _ _ _ _ _ (fun _ => hs) (fun m hm => ?_) (fun h => ?_),
    carriedHold_of _ _ _ _ _ (fun h1 h2 => ?_) (fun h => ?_)⟩
  · simp only [holdFor, requestHold_accepted f source false m s hs hq hm]; rfl
  · simp only [holdFor, requestHold_refused f source false s hs hq h]; rfl
  · simp only [holdFor, requestHold_returning f source false s h1 h2, holdDisposition, highReports, if_true,
      Bool.false_eq_true, if_false, reportTwo_none]
    rw [reported_carried _ _ (by simp [h1, StandIn.serving])]
  · have hs : s.controller.standIn.serving = false := by rcases h with h | h <;> simp [h, StandIn.serving]
    simp only [holdFor, requestHold_turnedAway f source false s h, holdDisposition, highReports, Bool.false_eq_true,
      if_false, reportTwo_none]
    rw [reported_carried]
    exact hs

end Sys2Proof.Machine
end

