-- ==== Sys2Proof/Laws/Leave.lean ====
section
/-! SUPPORT. What an entry's leaving ACTIVE does (its sessions lost, R106; the end of arming, R10, R40), what the entry to RETURNING does
(R17), and what a query schedules (R44). -/

namespace Sys2Proof.Machine

open Sys2Proof

/-! Notices keep the reply and the request in flight. -/

@[simp] theorem queueNotice_reply (n : Notice) (s : State) : (queueNotice n s).host.reply = s.host.reply := by
  simp only [queueNotice]; split <;> rfl

@[simp] theorem queueNotice_inFlight (n : Notice) (s : State) :
    (queueNotice n s).host.inFlight = s.host.inFlight := by
  simp only [queueNotice]; split <;> rfl

/-! What a report notes. -/

theorem reportCause_noted (r : Report) (s : State) (hs : s.controller.standIn.serving = true) :
    (reportCause r s).wake.record.noted = s.wake.record.noted.join r.cause := by
  simp only [reportCause, hs, if_true, recordCause, capture, enableCause, enterCalling, beginCalling, startClaim,
    startAttempt]
  split <;> (repeat' split) <;> simp_all

theorem join_has (e : CauseSet) (c : Cause) : (e.join c).has c = true := by
  cases c <;> simp [CauseSet.has, CauseSet.join, Cause.priority]

theorem has_of_has_join (e : CauseSet) (c d : Cause) (h : e.has d = true) : (e.join c).has d = true := by
  simp only [CauseSet.has, CauseSet.join, BitVec.getLsbD_or, Bool.or_eq_true] at *
  exact .inl h

theorem join_join (e : CauseSet) (c : Cause) : (e.join c).join c = e.join c := by
  simp [CauseSet.join, BitVec.or_assoc]

/-! Sessions lost. -/

/-- Sessions lost one after another: the records named are lost, and SESSION_LOST is noted where there is one. -/
theorem loseEach (l : List Nat) (s : State) (hs : s.controller.standIn.serving = true) :
    (l.foldl (fun s i => loseSession i s) s).controller.standIn.serving = true
      ∧ (l.foldl (fun s i => loseSession i s) s).keeper =
          { s.keeper with sessions := l.foldl (fun k i => modifyAt k i Session.lose) s.keeper.sessions }
      ∧ (l.foldl (fun s i => loseSession i s) s).wake.record.noted =
          if l = [] then s.wake.record.noted else s.wake.record.noted.join .sessionLost := by
  induction l generalizing s with
  | nil => simp [hs]
  | cons i l ih =>
    obtain ⟨a, b, c⟩ := ih (loseSession i s) (reportCause_serving _ _ hs)
    have hn : (loseSession i s).wake.record.noted = s.wake.record.noted.join .sessionLost :=
      reportCause_noted (lostReport i none) _ hs
    refine ⟨a, ?_, ?_⟩
    · rw [List.foldl_cons, b]; simp [loseSession, modifySession]
    · rw [List.foldl_cons, c, hn, join_join]; simp

/-- Records changed one after another, each once, read as the change of the records named. -/
theorem modifyEach (l : List Nat) (k : List (Option Session)) (h : l.Nodup) (j : Nat) :
    (l.foldl (fun k i => modifyAt k i Session.lose) k)[j]? =
      if j ∈ l then k[j]?.map (Option.map Session.lose) else k[j]? := by
  induction l generalizing k with
  | nil => simp
  | cons i l ih =>
    have h1 := List.nodup_cons.mp h
    rw [List.foldl_cons, ih _ h1.2]
    simp only [modifyAt, List.getElem?_modify]
    by_cases h2 : j = i
    · subst h2; simp [h1.1]
    · simp [h2, show ¬ i = j from fun h => h2 h.symm]

/-- The indexes of a table's items rise. -/
theorem occupied_nodup {α : Type} (l : List (Option α)) : ((occupied l).map (·.1)).Nodup := by
  have h : ∀ z : List (Option α × Nat),
      ((z.filterMap (fun p => p.1.map (fun x => (p.2, x)))).map (·.1)).Sublist (z.map (·.2)) := by
    intro z
    induction z with
    | nil => simp
    | cons a z ih =>
      obtain ⟨x, n⟩ := a
      cases x with
      | none => simpa using ih.cons n
      | some x => simpa using ih.cons_cons n
  have h1 := h l.zipIdx
  rw [List.zipIdx_map_snd] at h1
  exact h1.nodup List.nodup_range'

theorem sessionsOf_nodup (entry : Nat) (s : State) : (sessionsOf entry s).Nodup :=
  List.Sublist.nodup (List.Sublist.map _ List.filter_sublist) (occupied_nodup s.keeper.sessions)

theorem mem_sessionsOf (entry : Nat) (s : State) (j : Nat) :
    j ∈ sessionsOf entry s ↔ ∃ x, s.keeper.sessions[j]? = some (some x) ∧ x.localIndex = entry ∧ x.state.live = true := by
  simp only [sessionsOf, List.mem_map, List.mem_filter, Prod.exists, Bool.and_eq_true, beq_iff_eq]
  constructor
  · rintro ⟨a, x, ⟨h1, h2, h3⟩, rfl⟩
    exact ⟨x, getElem?_of_lookup (lookup_of_mem_occupied h1), h2, h3⟩
  · rintro ⟨x, h1, h2, h3⟩
    exact ⟨j, x, ⟨mem_occupied (by simp [lookup, List.getD, h1]), h2, h3⟩, rfl⟩

/-- The sessions of an entry lost (R106): each live one is LOST, no other changes, and SESSION_LOST is noted where there
is one. -/
theorem loseSessions_does (entry : Nat) (s : State) (hs : s.controller.standIn.serving = true) :
    (loseSessions entry s).controller.standIn.serving = true
      ∧ (loseSessions entry s).keeper = { s.keeper with sessions := lostWith entry s.keeper.sessions }
      ∧ ((∃ x, some x ∈ s.keeper.sessions ∧ x.localIndex = entry ∧ x.state.live = true) →
          (loseSessions entry s).wake.record.noted = s.wake.record.noted.join .sessionLost)
      ∧ ((¬ ∃ x, some x ∈ s.keeper.sessions ∧ x.localIndex = entry ∧ x.state.live = true) →
          (loseSessions entry s).wake.record.noted = s.wake.record.noted) := by
  obtain ⟨h1, h2, h3⟩ := loseEach (sessionsOf entry s) s hs
  have hm : sessionsOf entry s ≠ [] ↔ ∃ x, some x ∈ s.keeper.sessions ∧ x.localIndex = entry ∧ x.state.live = true := by
    constructor
    · intro h
      obtain ⟨j, hj⟩ := List.exists_mem_of_ne_nil _ h
      obtain ⟨x, h4, h5⟩ := (mem_sessionsOf _ _ _).mp hj
      exact ⟨x, List.mem_of_getElem? h4, h5⟩
    · rintro ⟨x, h4, h5⟩
      obtain ⟨j, h6⟩ := List.getElem?_of_mem h4
      exact List.ne_nil_of_mem ((mem_sessionsOf _ _ _).mpr ⟨x, h6, h5⟩)
  refine ⟨h1, ?_, fun h => ?_, fun h => ?_⟩
  · refine h2.trans (congrArg (fun q => ({ s.keeper with sessions := q } : Keeper)) (List.ext_getElem? fun j => ?_))
    rw [modifyEach _ _ (sessionsOf_nodup entry s)]
    simp only [lostWith, List.getElem?_map]
    by_cases hj : j ∈ sessionsOf entry s
    · obtain ⟨x, h4, h5⟩ := (mem_sessionsOf _ _ _).mp hj
      simp [hj, h4, h5, Session.lose]
    · rw [if_neg hj]
      cases h4 : s.keeper.sessions[j]? with
      | none => rfl
      | some o =>
        cases o with
        | none => rfl
        | some x =>
          have : ¬ (x.localIndex = entry ∧ x.state.live = true) := fun h5 =>
            hj ((mem_sessionsOf _ _ _).mpr ⟨x, h4, h5⟩)
          simp [this]
  · exact h3.trans (if_neg (hm.mpr h))
  · exact h3.trans (if_pos (by by_contra h4; exact h (hm.mp h4)))

/-! The end of arming. -/

/-- The end of arming, where the removal of an item leaves nothing unsettled (R10, R11, R40). -/
theorem checkArmingEnd_does (s u : State) (h1 : u.controller.standIn = s.controller.standIn) (h2 : u.host = s.host)
    (h3 : u.time = s.time) (h4 : u.responder.settledDone = s.responder.settledDone)
    (h5 : u.responder.settledRefused = s.responder.settledRefused) : ArmingAfterRemoval s (checkArmingEnd u) := by
  intro ha
  have hu : unsettled (checkArmingEnd u) = unsettled u := by simp [unsettled]
  rw [hu]
  refine ⟨fun h => by simp [checkArmingEnd, h, h1, ha, h2], fun h tag hf => ?_⟩
  rw [show checkArmingEnd u = endArming false u by simp [checkArmingEnd, h, h1, ha]]
  simp only [endArming, replyInFlight, h2, hf, handOverReply, h3, h4, h5]
  by_cases hz : u.wake.record.enabled = 0
  · simp [hz, changeState, produceReply]
  · split
    · rename_i h6; simp at h6
    refine ⟨?_, ?_, ?_⟩
    · simp_all [enterCalling, beginCalling, startAttempt, startClaim, changeState, produceReply]
      split <;> simp_all
    · simp [show ¬ u.wake.record.enabled = 0#8 from hz, enterCalling, changeState, produceReply]
    · simp [show ¬ u.wake.record.enabled = 0#8 from hz, enterCalling, changeState, produceReply]

/-- The end of arming notes nothing. -/
theorem checkArmingEnd_noted (s : State) : (checkArmingEnd s).wake.record.noted = s.wake.record.noted := by
  simp only [checkArmingEnd, endArming, enterCalling, beginCalling, startAttempt, startClaim]
  (repeat' split) <;> simp

/-- The end of arming at the host port and the controller (R3, R10, R11). -/
theorem endArming_does (linkDown : Bool) (u : State) (tag : Byte) (ha : u.controller.standIn = .arming)
    (hf : u.host.inFlight = some tag) :
    (endArming linkDown u).wake.record.enabled = u.wake.record.enabled
      ∧ (endArming linkDown u).controller.standIn = (if u.wake.record.enabled = 0 then .standing else .calling)
      ∧ (endArming linkDown u).host =
          { afterChanges
              ([(.standing, .handedOver)] ++ if u.wake.record.enabled = 0 then [] else [(.calling, .called)]) u with
            inFlight := none, reply := some { tag := tag, body := handOverReply linkDown u }, attn := true } := by
  have hk : ∀ v : State, (enterCalling v).host = (changeState .calling .called v).host := by
    intro v; simp only [enterCalling, beginCalling, startAttempt, startClaim]; (repeat' split) <;> rfl
  refine ⟨?_, ?_⟩
  · simp only [endArming, enterCalling, beginCalling, startAttempt, startClaim]; (repeat' split) <;> simp
  by_cases hz : u.wake.record.enabled = 0
  · have e : (endArming linkDown u) =
        let s1 := changeState .standing .handedOver (replyInFlight (handOverReply linkDown u) u)
        { s1 with wake := { s1.wake with claim := none, phase := .none } } := by
      simp only [endArming]; rw [if_pos (by simpa using hz)]
    rw [e, if_pos hz, if_pos hz]
    refine ⟨rfl, ?_⟩
    simp only [replyInFlight, hf, changeState, produceReply, queueNotice, stateNotice]
    simp only [List.append_nil, afterChanges, afterChange, queueNotice]
    split <;> simp
  · have e : (endArming linkDown u) =
        let s1 := changeState .standing .handedOver (replyInFlight (handOverReply linkDown u) u)
        enterCalling { s1 with wake := { s1.wake with claim := none, phase := .none } } := by
      simp only [endArming]; rw [if_neg (by simpa using hz)]
    rw [e, if_neg hz, if_neg hz]
    refine ⟨?_, ?_⟩
    · simp only [enterCalling, beginCalling, startAttempt, startClaim]; (repeat' split) <;> simp [changeState]
    · simp only [hk, replyInFlight, hf, changeState, produceReply, queueNotice, stateNotice]
      simp only [List.cons_append, List.nil_append, afterChanges, afterChange, queueNotice]
      (repeat' split) <;> simp_all

/-! The entry to RETURNING. -/

theorem sendingStep_queue (s : State) : (sendingStep s).hold.queue = [] ↔ s.hold.queue = [] := by
  simp only [sendingStep]
  split
  · refine ⟨fun h => ?_, fun h => ?_⟩
    · by_contra h1; exact markInFlight_ne_nil _ _ h1 h
    · rw [h]; cases sendRoom s <;> rfl
  · rfl

theorem sendingStep_rxBuffer (s : State) : (sendingStep s).port.rxBuffer = s.port.rxBuffer := by
  simp only [sendingStep]; split <;> rfl

/-- The entry to RETURNING (R3, R17, R21, R45, R50, R109, R148). -/
theorem enterReturning_does (s : State) (reason : Reason) (outcome : WakeOutcome) :
    (enterReturning reason outcome s).host = afterChanges (returnChanges reason s) s
      ∧ (enterReturning reason outcome s).responder = abandoned s.responder
      ∧ (enterReturning reason outcome s).keeper = { s.keeper with sessions := allReturned s.keeper.sessions }
      ∧ (enterReturning reason outcome s).wake = freezeWake outcome s.wake := by
  refine ⟨?_, by simp [enterReturning, abandonItems, abandoned, mapTable],
    by simp [enterReturning, allReturned, mapTable]; intros; rfl, by simp [enterReturning]⟩
  simp only [enterReturning, checkDrained, returnChanges]
  split <;> split
  · simp [endReturn, changeState, afterChanges, abandonItems, afterChange, stateNotice, queueNotice]
    (repeat' split) <;> simp_all
  · rename_i h1 h2
    simp only [drainComplete, Bool.and_eq_true, List.isEmpty_iff] at h1
    have h3 := (sendingStep_queue _).mp h1.1.1.2
    simp [markReached4, sendingStep_rxBuffer] at h1 h3
    exact absurd ⟨h3, h1.1.2, h1.2⟩ h2
  · rename_i h1 h2
    refine absurd ?_ h1
    simp only [drainComplete, Bool.and_eq_true, List.isEmpty_iff]
    exact ⟨⟨⟨by simp [changeState], (sendingStep_queue _).mpr (by simp [h2])⟩, by simp [sendingStep_rxBuffer, h2]⟩,
      by simp [markReached4, h2]⟩
  · simp [changeState, afterChanges, abandonItems, afterChange, stateNotice, queueNotice]

/-! Queries. -/

/-- A query concerns each entry once (R44). -/
theorem queriedEntries_nodup (entries : List (Option IdentityEntry)) (kind : EntryKind) (vlan : Nat) (group : Addr)
    (t : Nat) : ((queriedEntries entries kind vlan group t).map (·.1)).Nodup := by
  have base : (((occupied entries).filter (fun p => p.2.kind == kind && p.2.vlan == vlan)).map (·.1)).Nodup :=
    List.Sublist.nodup (List.Sublist.map _ List.filter_sublist) (occupied_nodup entries)
  have key : ∀ (l : List (Nat × IdentityEntry)) (n m : Nat),
      ((l.zipIdx n).map (fun p => (p.1.1, t * (p.2 + 1) / (m + 1)))).map (·.1) = l.map (·.1) := by
    intro l
    induction l with
    | nil => simp
    | cons a l ih =>
      intro n m
      rw [List.zipIdx_cons, List.map_cons, List.map_cons, ih, List.map_cons]
  simp only [queriedEntries]
  split
  · rw [key]; exact base
  · rw [List.map_map]; exact List.Sublist.nodup (List.Sublist.map _ List.filter_sublist) base

theorem lookup_touchEntry (k : Nat) (f : IdentityEntry → IdentityEntry) (s : State) (i : Nat) :
    lookup (touchEntry k f s).responder.entries i =
      if i = k ∧ isSuperseded (superseded s).entries k = false then (lookup s.responder.entries i).map f
      else lookup s.responder.entries i := by
  simp only [touchEntry]
  split
  · simp_all
  · rename_i h
    simp only [modifyAt, lookup, List.getD, List.getElem?_modify]
    by_cases hi : i = k
    · subst hi; simp [h]; cases s.responder.entries[i]? <;> simp
    · simp [hi, show ¬ k = i from fun h => hi h.symm]

/-- What a query does to the entries (R44): each one named, and not edited since, is given its deadline; no other
changes. -/
theorem scheduleAll (now : Time) (form : ReportForm) (q : List (Nat × Nat)) (hq : (q.map (·.1)).Nodup) (s : State) :
    (∀ i d, (i, d) ∈ q → isSuperseded (superseded s).entries i = false → ∀ e, lookup s.responder.entries i = some e →
        lookup (q.foldl (fun s p => touchEntry p.1 (fun e => e.schedule now p.2 form) s) s).responder.entries i
          = some (e.schedule now d form))
      ∧ (∀ i, ((∀ d, (i, d) ∉ q) ∨ isSuperseded (superseded s).entries i = true) →
          lookup (q.foldl (fun s p => touchEntry p.1 (fun e => e.schedule now p.2 form) s) s).responder.entries i
            = lookup s.responder.entries i) := by
  induction q generalizing s with
  | nil => simp
  | cons a q ih =>
    obtain ⟨k, d0⟩ := a
    simp only [List.map_cons, List.nodup_cons] at hq
    obtain ⟨a2, a3⟩ := ih hq.2 (touchEntry k (fun e => e.schedule now d0 form) s)
    have hs : superseded (touchEntry k (fun e => e.schedule now d0 form) s) = superseded s := by simp [superseded]
    rw [hs] at a2 a3
    refine ⟨fun i d hm hn e he => ?_, fun i hi => ?_⟩
    · rw [List.foldl_cons]
      rcases List.mem_cons.mp hm with h | h
      · obtain ⟨rfl, rfl⟩ := Prod.mk.inj h
        rw [a3 _ (.inl (fun d h => hq.1 (List.mem_map.mpr ⟨_, h, rfl⟩))), lookup_touchEntry]
        simp [hn, he]
      · have hik : i ≠ k := fun hh => hq.1 (List.mem_map.mpr ⟨_, h, hh⟩)
        exact a2 i d h hn e (by rw [lookup_touchEntry]; simp [hik, he])
    · have hik : ¬ (i = k ∧ isSuperseded (superseded s).entries k = false) := by
        rintro ⟨rfl, h⟩
        rcases hi with hi | hi
        · exact hi d0 (by simp)
        · simp [h] at hi
      rw [List.foldl_cons, a3 i (hi.imp (fun h d hd => h d (by simp [hd])) id), lookup_touchEntry, if_neg hik]

end Sys2Proof.Machine
end

