-- ==== Sys2Proof/Laws/Offers.lean ====
section
/-! SUPPORT. What the waiting owners' offers at the transmit queue do: the items they place, the room they leave, and what they change at
the sessions and the announcement list (R45 to R49, R99, R155). -/

namespace Sys2Proof.Machine

open Sys2Proof

/-- From one state to the next a block has only placed frames of its kinds at the tail of the transmit queue, each sent
on the station link. -/
def Placed (kinds : TxKind → Bool) (s t : State) : Prop :=
  t.controller = s.controller ∧ t.counters = s.counters
    ∧ ∃ new : List TxSlot,
        t.port =
            { s.port with
              txQueue := s.port.txQueue ++ new, sent := s.port.sent ++ new.map (fun x => .txFrame x.frame) }
          ∧ ∀ x ∈ new, kinds x.kind = true

theorem Placed.refl (kinds : TxKind → Bool) (s : State) : Placed kinds s s := ⟨rfl, rfl, [], by simp⟩

theorem Placed.trans {kinds : TxKind → Bool} {s t u : State} (h1 : Placed kinds s t) (h2 : Placed kinds t u) :
    Placed kinds s u := by
  obtain ⟨a1, b1, n1, c1, d1⟩ := h1
  obtain ⟨a2, b2, n2, c2, d2⟩ := h2
  refine ⟨a2.trans a1, b2.trans b1, n1 ++ n2, ?_, ?_⟩
  · rw [c2, c1]; simp
  · intro x hx
    rcases List.mem_append.mp hx with hx | hx
    · exact d1 x hx
    · exact d2 x hx

theorem Placed.serving {kinds : TxKind → Bool} {s t : State} (h : Placed kinds s t)
    (hs : s.controller.standIn.serving = true) : t.controller.standIn.serving = true := by
  rw [h.1]; exact hs

theorem Placed.foldl {α : Type} {kinds : TxKind → Bool} (f : State → α → State)
    (h : ∀ s a, s.controller.standIn.serving = true → Placed kinds s (f s a)) (l : List α) (s : State)
    (hs : s.controller.standIn.serving = true) : Placed kinds s (l.foldl f s) := by
  induction l generalizing s with
  | nil => exact Placed.refl kinds s
  | cons a l ih => exact (h s a hs).trans (ih _ ((h s a hs).serving hs))

/-- The transmit queue only grows at its tail. -/
theorem Placed.length_le {kinds : TxKind → Bool} {s t : State} (h : Placed kinds s t) :
    s.port.txQueue.length ≤ t.port.txQueue.length := by
  obtain ⟨_, _, n, c, _⟩ := h
  rw [c]; simp

/-- An item accepted is placed, whatever else of its owner then changes. -/
theorem placed_offerTx {kinds : TxKind → Bool} {kind : TxKind} {owner : TxOwner} {frame : List Byte} {s u : State}
    (h : offerResult kind s = .accepted) (hk : kinds kind = true)
    (hc : u.controller = (offerTx kind owner frame s).controller)
    (hn : u.counters = (offerTx kind owner frame s).counters) (hp : u.port = (offerTx kind owner frame s).port) :
    Placed kinds s u := by
  refine ⟨by simp [hc], ?_, [{ kind := kind, owner := owner, frame := frame }], ?_, by simpa using hk⟩
  · simp [hn, offerTx, h, sendRecord]
  · simp [hp, offerTx, h, sendRecord]

/-- In a stand-in an announcement, a probe or a report is accepted exactly where the queue has room (R153). -/
theorem accepted_iff {kind : TxKind} (s : State) (hs : s.controller.standIn.serving = true) :
    offerResult kind s = .accepted ↔ s.port.txQueue.length < 8 := by
  unfold offerResult
  simp only [hs, if_true]
  split
  · simp [*]
  · cases kind <;> simp [*]

/-- The kinds of the responder's items. -/
def responderKinds (k : TxKind) : Bool := k == .announce || k == .report

/-- The kind of the keeper's items. -/
def keeperKinds (k : TxKind) : Bool := k == .probe

theorem placed_offerDefence (i : Nat) (s : State) : Placed responderKinds s (offerDefence i s) := by
  unfold offerDefence
  split
  · exact Placed.refl _ s
  · split
    · rename_i h
      exact placed_offerTx h.2 rfl rfl rfl rfl
    · exact Placed.refl _ s

theorem placed_offerDueReport (i : Nat) (s : State) : Placed responderKinds s (offerDueReport i s) := by
  unfold offerDueReport
  split
  · exact Placed.refl _ s
  · split
    · exact Placed.refl _ s
    · split
      · rename_i h
        exact placed_offerTx h.2 rfl rfl rfl rfl
      · exact Placed.refl _ s

theorem listItem_kind (entries : List (Option IdentityEntry)) (e : IdentityEntry) :
    responderKinds (listItem entries e).1 = true := by
  unfold listItem; split <;> rfl

theorem placed_offerList (l : List Nat) (s : State) : Placed responderKinds s (offerList l s) := by
  induction l generalizing s with
  | nil => exact ⟨rfl, rfl, [], by simp [offerList]⟩
  | cons i l ih =>
    unfold offerList
    split
    · exact ih s
    · dsimp only
      split
      · rename_i h
        exact (placed_offerTx h (listItem_kind _ _) rfl rfl rfl).trans (ih _)
      · exact ⟨rfl, rfl, [], by simp⟩

theorem placed_responderOffers (s : State) (hs : s.controller.standIn.serving = true) :
    Placed responderKinds s (responderOffers s) := by
  have h1 := Placed.foldl _ (fun s i _ => placed_offerDefence i s) (List.range 24) s hs
  have h2 := Placed.foldl _ (fun s i _ => placed_offerDueReport i s) (List.range 24) _ (h1.serving hs)
  exact (h1.trans h2).trans (placed_offerList _ _)

theorem placed_offerProbe (i : Nat) (s : State) (hs : s.controller.standIn.serving = true) :
    Placed keeperKinds s (offerProbe i s) := by
  unfold offerProbe
  split
  · exact Placed.refl _ s
  · split
    · dsimp only
      split
      · rename_i h
        exact placed_offerTx h rfl rfl rfl rfl
      · rename_i h
        have hq : ¬ s.port.txQueue.length < 8 := fun hq => h ((accepted_iff s hs).mpr hq)
        simp only [offerTx, offerResult, hs, if_true, hq, if_false]
        exact Placed.refl _ s
    · exact Placed.refl _ s

theorem placed_keeperOffers (s : State) (hs : s.controller.standIn.serving = true) :
    Placed keeperKinds s (keeperOffers s) :=
  Placed.foldl _ (fun s i h => placed_offerProbe i s h) _ s hs

/-- The list's offers end with the list empty or the queue full (R47). -/
theorem offerList_room (l : List Nat) (s : State) (hs : s.controller.standIn.serving = true) :
    (offerList l s).responder.list = [] ∨ 8 ≤ (offerList l s).port.txQueue.length := by
  induction l generalizing s with
  | nil => exact .inl rfl
  | cons i l ih =>
    unfold offerList
    split
    · exact ih s hs
    · dsimp only
      split
      · exact ih _ (by simpa using hs)
      · rename_i h
        rw [accepted_iff s hs] at h
        exact .inr (Nat.le_of_not_lt h)

theorem responderOffers_room (s : State) (hs : s.controller.standIn.serving = true) :
    (responderOffers s).responder.list = [] ∨ 8 ≤ (responderOffers s).port.txQueue.length := by
  have h1 := Placed.foldl _ (fun s i _ => placed_offerDefence i s) (List.range 24) s hs
  have h2 := (Placed.foldl _ (fun s i _ => placed_offerDueReport i s) (List.range 24) _ (h1.serving hs)).serving
    (h1.serving hs)
  simp only [responderOffers]
  generalize List.foldl _ (List.foldl _ s _) _ = u at h2 ⊢
  exact offerList_room _ _ h2

/-- What an offer of the list leaves of the responder: the items in the queue and those pending are the items in order. -/
theorem offerList_items (l : List Nat) (s : State) (hl : ∀ i ∈ l, (lookup s.responder.entries i).isSome = true) :
    (offerList l s).responder = { s.responder with list := (offerList l s).responder.list }
      ∧ ∃ new : List TxSlot,
          (offerList l s).port.txQueue = s.port.txQueue ++ new
            ∧ ∃ placed : List Nat,
                new.map (fun x => x.owner) = placed.map (TxOwner.listItem s.responder.build)
                  ∧ placed ++ (offerList l s).responder.list = l := by
  induction l generalizing s with
  | nil => exact ⟨rfl, [], by simp [offerList], [], rfl, rfl⟩
  | cons i l ih =>
    unfold offerList
    have hi := hl i (by simp)
    split
    · simp_all
    · rename_i e he
      dsimp only
      split
      · rename_i h
        obtain ⟨a, new, b, placed, c, d⟩ :=
          ih (offerTx (listItem s.responder.entries e).1 (.listItem s.responder.build i)
              (listItem s.responder.entries e).2 s) (fun j hj => by simpa using hl j (by simp [hj]))
        let slot : TxSlot :=
          { kind := (listItem s.responder.entries e).1, owner := .listItem s.responder.build i,
            frame := (listItem s.responder.entries e).2 }
        refine ⟨a.trans (by simp), slot :: new, ?_, i :: placed, ?_, by simpa using d⟩
        · rw [b]; simp [offerTx, h, sendRecord, slot]
        · simp only [List.map_cons, c, slot]; simp
      · exact ⟨rfl, [], by simp, [], rfl, rfl⟩

/-- Between two states some PENDING probes have become QUEUED, and no session has changed otherwise (R99). -/
def ProbesQueued (s t : State) : Prop :=
  ∀ j, lookup t.keeper.sessions j = lookup s.keeper.sessions j
    ∨ ∃ x n, lookup s.keeper.sessions j = some x ∧ x.state = .probing ∧ x.phase = .pending
        ∧ lookup t.keeper.sessions j = some { x with phase := .queued, probeId := n }

theorem ProbesQueued.trans {s t u : State} (h1 : ProbesQueued s t) (h2 : ProbesQueued t u) : ProbesQueued s u := by
  intro j
  rcases h1 j with a | ⟨x, n, a, b, c, d⟩
  · rcases h2 j with e | ⟨y, m, e, f⟩
    · exact .inl (e.trans a)
    · exact .inr ⟨y, m, a ▸ e, f⟩
  · rcases h2 j with e | ⟨y, m, e, f, g, _⟩
    · exact .inr ⟨x, n, a, b, c, e.trans d⟩
    · rw [d] at e
      obtain rfl := Option.some.inj e
      simp at g

theorem offerProbe_sessions (i : Nat) (s : State) : ProbesQueued s (offerProbe i s) := by
  intro j
  unfold offerProbe
  split
  · exact .inl rfl
  · rename_i x hx
    split
    · rename_i h
      dsimp only
      split
      · simp only [offerTx_keeps, modifyAt_eq_set hx, lookup_set hx]
        by_cases hj : i = j
        · subst hj
          exact .inr ⟨x, s.keeper.nextProbe, hx, h.1, h.2.1, by simp⟩
        · exact .inl (by simp [hj])
      · exact .inl (by simp)
    · exact .inl rfl

theorem keeperOffers_sessions (s : State) : ProbesQueued s (keeperOffers s) := by
  unfold keeperOffers
  generalize pendingProbes s = l
  induction l generalizing s with
  | nil => exact fun j => .inl rfl
  | cons i l ih => exact (offerProbe_sessions i s).trans (ih _)

theorem mem_pendingProbes (s : State) (j : Nat) :
    j ∈ pendingProbes s ↔ ∃ x, lookup s.keeper.sessions j = some x ∧ x.state = .probing ∧ x.phase = .pending := by
  simp only [pendingProbes, List.mem_map, List.mem_filter, Bool.and_eq_true, beq_iff_eq]
  constructor
  · rintro ⟨p, ⟨h1, h2, h3⟩, rfl⟩
    exact ⟨p.2, lookup_of_mem_occupied h1, h2, h3⟩
  · rintro ⟨x, h1, h2, h3⟩
    exact ⟨(j, x), ⟨mem_occupied h1, h2, h3⟩, rfl⟩

/-- No probe becomes PENDING by the keeper's offers. -/
theorem ProbesQueued.pending {s t : State} (h : ProbesQueued s t) {j : Nat} (hj : j ∈ pendingProbes t) :
    j ∈ pendingProbes s := by
  rw [mem_pendingProbes] at hj ⊢
  obtain ⟨x, a, b, c⟩ := hj
  rcases h j with e | ⟨y, n, _, _, _, e⟩
  · exact ⟨x, e ▸ a, b, c⟩
  · rw [e] at a
    obtain rfl := Option.some.inj a
    simp at c

/-- With the link UP and room, an offered probe is PENDING no longer (R99). -/
theorem offerProbe_pending (i : Nat) (s : State) (hs : s.controller.standIn.serving = true)
    (hu : s.port.linkUp = true) (hq : s.port.txQueue.length < 8) : i ∉ pendingProbes (offerProbe i s) := by
  rw [mem_pendingProbes]
  rintro ⟨x, a, b, c⟩
  have hr : offerResult .probe s = .accepted := (accepted_iff s hs).mpr hq
  unfold offerProbe at a
  split at a
  · simp_all
  · rename_i y hy
    split at a
    · simp only [if_true, offerTx_keeps, modifyAt_eq_set hy, lookup_set hy] at a
      obtain rfl := Option.some.inj a
      simp at c
    · rename_i h
      rw [hy] at a
      obtain rfl := Option.some.inj a
      exact h ⟨b, c, hu⟩

/-- The keeper's offers end with no probe PENDING or the queue full (R99, R155). -/
theorem keeperOffers_room (s : State) (hs : s.controller.standIn.serving = true) (hu : s.port.linkUp = true) :
    pendingProbes (keeperOffers s) = [] ∨ 8 ≤ (keeperOffers s).port.txQueue.length := by
  have key : ∀ (l : List Nat) (u : State), u.controller.standIn.serving = true → u.port.linkUp = true →
      (∀ j ∈ pendingProbes u, j ∈ l ∨ 8 ≤ u.port.txQueue.length) →
      ∀ j ∈ pendingProbes (l.foldl (fun s i => offerProbe i s) u),
        8 ≤ (l.foldl (fun s i => offerProbe i s) u).port.txQueue.length := by
    intro l
    induction l with
    | nil =>
      intro u _ _ h j hj
      simpa using h j hj
    | cons i l ih =>
      intro u hus huu h
      have hp := placed_offerProbe i u hus
      refine ih (offerProbe i u) (hp.serving hus) (by obtain ⟨_, _, n, c, _⟩ := hp; rw [c]; exact huu) ?_
      intro j hj
      by_cases hq : u.port.txQueue.length < 8
      · rcases h j ((offerProbe_sessions i u).pending hj) with h1 | h1
        · rcases List.mem_cons.mp h1 with rfl | h1
          · exact absurd hj (offerProbe_pending j u hus huu hq)
          · exact .inl h1
        · omega
      · exact .inr (Nat.le_trans (Nat.le_of_not_lt hq) hp.length_le)
  rcases List.eq_nil_or_concat (pendingProbes (keeperOffers s)) with h | ⟨_, j, h⟩
  · exact .inl h
  · exact .inr (key (pendingProbes s) s hs hu (fun j hj => .inl hj) j (by rw [show List.foldl _ s _ = keeperOffers s from rfl, h]; simp))

/-- What an invitation does in a stand-in with the link UP (R155): the owner named by the turn places its items first,
and the turn passes where it has placed one; room is left only where nothing waits. -/
theorem invite_spec (s : State) (hs : s.controller.standIn.serving = true) (hu : s.port.linkUp = true) :
    (invite s).counters = s.counters
      ∧ (∃ first second : List TxSlot,
          (invite s).port.txQueue = s.port.txQueue ++ first ++ second
            ∧ (s.port.turn = .responder →
                (∀ x ∈ first, responderKinds x.kind = true) ∧ (∀ x ∈ second, keeperKinds x.kind = true)
                  ∧ (invite s).port.turn = (if first = [] then .responder else .keeper))
            ∧ (s.port.turn = .keeper →
                (∀ x ∈ first, keeperKinds x.kind = true) ∧ (∀ x ∈ second, responderKinds x.kind = true)
                  ∧ (invite s).port.turn = (if first = [] then .keeper else .responder)))
      ∧ (invite s).port.rxBuffer = s.port.rxBuffer ∧ (invite s).port.linkUp = s.port.linkUp
      ∧ (8 ≤ (invite s).port.txQueue.length ∨ ((invite s).responder.list = [] ∧ pendingProbes (invite s) = []))
      ∧ ProbesQueued s (invite s) := by
  cases ht : s.port.turn
  · have h1 := placed_responderOffers s hs
    have h2 := placed_keeperOffers (responderOffers s) (h1.serving hs)
    have r1 := responderOffers_room s hs
    obtain ⟨a1, b1, n1, c1, d1⟩ := id h1
    obtain ⟨a2, b2, n2, c2, d2⟩ := id h2
    have hu1 : (responderOffers s).port.linkUp = true := by rw [c1]; exact hu
    have r2 := keeperOffers_room (responderOffers s) (h1.serving hs) hu1
    have hp : placed s (responderOffers s) = !n1.isEmpty := by
      unfold placed; rw [c1]; cases n1 <;> simp
    have pq : (keeperOffers (responderOffers s)).port.txQueue = s.port.txQueue ++ n1 ++ n2 := by rw [c2, c1]
    have pt : (keeperOffers (responderOffers s)).port.turn = s.port.turn := by rw [c2, c1]
    have pr : (keeperOffers (responderOffers s)).port.rxBuffer = s.port.rxBuffer := by rw [c2, c1]
    have pl : (keeperOffers (responderOffers s)).port.linkUp = true := by rw [c2, c1]; exact hu
    have hq : ProbesQueued s (keeperOffers (responderOffers s)) := by
      have := keeperOffers_sessions (responderOffers s)
      simpa [ProbesQueued] using this
    have hroom : 8 ≤ (keeperOffers (responderOffers s)).port.txQueue.length
        ∨ ((keeperOffers (responderOffers s)).responder.list = []
          ∧ pendingProbes (keeperOffers (responderOffers s)) = []) := by
      rcases r1 with r1 | r1
      · rcases r2 with r2 | r2
        · exact .inr ⟨by simpa using r1, r2⟩
        · exact .inl r2
      · exact .inl (Nat.le_trans r1 h2.length_le)
    simp only [invite, hs, hu, and_self, if_true, ht, hp]
    cases n1 with
    | nil =>
      simp only [List.isEmpty_nil, Bool.not_true, Bool.false_eq_true, if_false]
      exact ⟨b2.trans b1, ⟨[], n2, by simp [pq], fun _ => ⟨by simp, d2, by simp [pt, ht]⟩, by simp⟩, pr, pl, hroom, hq⟩
    | cons x n1 =>
      simp only [List.isEmpty_cons, Bool.not_false, if_true]
      exact ⟨b2.trans b1, ⟨x :: n1, n2, by simp [pq], fun _ => ⟨d1, d2, by simp⟩, by simp⟩, pr, pl,
        by simpa only [pendingProbes] using hroom, by simpa only [ProbesQueued] using hq⟩
  · have h1 := placed_keeperOffers s hs
    have h2 := placed_responderOffers (keeperOffers s) (h1.serving hs)
    have r1 := keeperOffers_room s hs hu
    obtain ⟨a1, b1, n1, c1, d1⟩ := id h1
    obtain ⟨a2, b2, n2, c2, d2⟩ := id h2
    have r2 := responderOffers_room (keeperOffers s) (h1.serving hs)
    have hp : placed s (keeperOffers s) = !n1.isEmpty := by
      unfold placed; rw [c1]; cases n1 <;> simp
    have pq : (responderOffers (keeperOffers s)).port.txQueue = s.port.txQueue ++ n1 ++ n2 := by rw [c2, c1]
    have pt : (responderOffers (keeperOffers s)).port.turn = s.port.turn := by rw [c2, c1]
    have pr : (responderOffers (keeperOffers s)).port.rxBuffer = s.port.rxBuffer := by rw [c2, c1]
    have pl : (responderOffers (keeperOffers s)).port.linkUp = true := by rw [c2, c1]; exact hu
    have hq : ProbesQueued s (responderOffers (keeperOffers s)) := by
      have := keeperOffers_sessions s
      simpa [ProbesQueued] using this
    have hroom : 8 ≤ (responderOffers (keeperOffers s)).port.txQueue.length
        ∨ ((responderOffers (keeperOffers s)).responder.list = []
          ∧ pendingProbes (responderOffers (keeperOffers s)) = []) := by
      rcases r1 with r1 | r1
      · rcases r2 with r2 | r2
        · exact .inr ⟨r2, by simpa [pendingProbes] using r1⟩
        · exact .inl r2
      · exact .inl (Nat.le_trans r1 h2.length_le)
    simp only [invite, hs, hu, and_self, if_true, ht, hp]
    cases n1 with
    | nil =>
      simp only [List.isEmpty_nil, Bool.not_true, Bool.false_eq_true, if_false]
      exact ⟨b2.trans b1, ⟨[], n2, by simp [pq], by simp, fun _ => ⟨by simp, d2, by simp [pt, ht]⟩⟩, pr, pl, hroom, hq⟩
    | cons x n1 =>
      simp only [List.isEmpty_cons, Bool.not_false, if_true]
      exact ⟨b2.trans b1, ⟨x :: n1, n2, by simp [pq], by simp, fun _ => ⟨d1, d2, by simp⟩⟩, pr, pl,
        by simpa only [pendingProbes] using hroom, by simpa only [ProbesQueued] using hq⟩

end Sys2Proof.Machine
end

