-- ==== Sys2Proof/Laws/PerInstr.lean ====
section
/-! SUPPORT. One law for every command as it is written: what it carries fits in its frame. -/

namespace Sys2Proof.Laws

open Sys2Proof

/-- The bytes that a command carries as the body of a host frame or of a received-frame record; the bytes of a
transaction and of an incorrect record are no body. -/
def bodyOf : Instr → List Byte
  | .nop _ body => body
  | .handOver _ body => body
  | .takeBack _ body => body
  | .identityPut _ body => body
  | .identityDrop _ body => body
  | .identityList _ body => body
  | .rulePut _ body => body
  | .ruleDrop _ body => body
  | .ruleList _ body => body
  | .templatePut _ body => body
  | .templateDrop _ body => body
  | .templateList _ body => body
  | .sessionPut _ body => body
  | .sessionDrop _ body => body
  | .sessionGet _ body => body
  | .policySet _ body => body
  | .policyGet _ body => body
  | .wakeRecord _ body => body
  | .evidenceRead _ body => body
  | .evidenceRelease _ body => body
  | .holdStatus _ body => body
  | .status _ body => body
  | .clearAll _ body => body
  | .statusClear _ => [1]
  | .rxFrame frame => frame
  | _ => []

/-- A well-formed command's body fits in a frame of either link: at most 1600 bytes (R149, section 11.1). -/
def BodyWithinFrame.Statement (i : Instr) : Prop := i.wellFormed = true → (bodyOf i).length ≤ 1600

namespace BodyWithinFrame

theorem fullReset (hcsLow hostupHigh : Bool) : Statement (.fullReset hcsLow hostupHigh) := fun _ => by simp [bodyOf]

theorem hostupLineChange (high : Bool) : Statement (.hostupLineChange high) := fun _ => by simp [bodyOf]

theorem hostupRiseTaken : Statement .hostupRiseTaken := fun _ => by simp [bodyOf]

theorem hostupFallTaken : Statement .hostupFallTaken := fun _ => by simp [bodyOf]

theorem hcsFall : Statement .hcsFall := fun _ => by simp [bodyOf]

theorem hcsRise (clocked : List Byte) : Statement (.hcsRise clocked) := fun _ => by simp [bodyOf]

theorem nop (tag : Byte) (body : List Byte) : Statement (.nop tag body) := fun h => of_decide_eq_true h

theorem handOver (tag : Byte) (body : List Byte) : Statement (.handOver tag body) := fun h => of_decide_eq_true h

theorem takeBack (tag : Byte) (body : List Byte) : Statement (.takeBack tag body) := fun h => of_decide_eq_true h

theorem identityPut (tag : Byte) (body : List Byte) : Statement (.identityPut tag body) := fun h => of_decide_eq_true h

theorem identityDrop (tag : Byte) (body : List Byte) : Statement (.identityDrop tag body) :=
  fun h => of_decide_eq_true h

theorem identityList (tag : Byte) (body : List Byte) : Statement (.identityList tag body) :=
  fun h => of_decide_eq_true h

theorem rulePut (tag : Byte) (body : List Byte) : Statement (.rulePut tag body) := fun h => of_decide_eq_true h

theorem ruleDrop (tag : Byte) (body : List Byte) : Statement (.ruleDrop tag body) := fun h => of_decide_eq_true h

theorem ruleList (tag : Byte) (body : List Byte) : Statement (.ruleList tag body) := fun h => of_decide_eq_true h

theorem templatePut (tag : Byte) (body : List Byte) : Statement (.templatePut tag body) := fun h => of_decide_eq_true h

theorem templateDrop (tag : Byte) (body : List Byte) : Statement (.templateDrop tag body) :=
  fun h => of_decide_eq_true h

theorem templateList (tag : Byte) (body : List Byte) : Statement (.templateList tag body) :=
  fun h => of_decide_eq_true h

theorem sessionPut (tag : Byte) (body : List Byte) : Statement (.sessionPut tag body) := fun h => of_decide_eq_true h

theorem sessionDrop (tag : Byte) (body : List Byte) : Statement (.sessionDrop tag body) := fun h => of_decide_eq_true h

theorem sessionGet (tag : Byte) (body : List Byte) : Statement (.sessionGet tag body) := fun h => of_decide_eq_true h

theorem policySet (tag : Byte) (body : List Byte) : Statement (.policySet tag body) := fun h => of_decide_eq_true h

theorem policyGet (tag : Byte) (body : List Byte) : Statement (.policyGet tag body) := fun h => of_decide_eq_true h

theorem wakeRecord (tag : Byte) (body : List Byte) : Statement (.wakeRecord tag body) := fun h => of_decide_eq_true h

theorem evidenceRead (tag : Byte) (body : List Byte) : Statement (.evidenceRead tag body) :=
  fun h => of_decide_eq_true h

theorem evidenceRelease (tag : Byte) (body : List Byte) : Statement (.evidenceRelease tag body) :=
  fun h => of_decide_eq_true h

theorem holdStatus (tag : Byte) (body : List Byte) : Statement (.holdStatus tag body) := fun h => of_decide_eq_true h

theorem status (tag : Byte) (body : List Byte) : Statement (.status tag body) :=
  fun h => of_decide_eq_true (Bool.and_eq_true_iff.1 h).1

theorem statusClear (tag : Byte) : Statement (.statusClear tag) := fun _ => by simp [bodyOf]

theorem clearAll (tag : Byte) (body : List Byte) : Statement (.clearAll tag body) := fun h => of_decide_eq_true h

theorem rxFrame (frame : List Byte) : Statement (.rxFrame frame) :=
  fun h => of_decide_eq_true (Bool.and_eq_true_iff.1 h).2

theorem txDone : Statement .txDone := fun _ => by simp [bodyOf]

theorem txRefused : Statement .txRefused := fun _ => by simp [bodyOf]

theorem deliverDone : Statement .deliverDone := fun _ => by simp [bodyOf]

theorem linkUp : Statement .linkUp := fun _ => by simp [bodyOf]

theorem linkDown : Statement .linkDown := fun _ => by simp [bodyOf]

theorem portReset : Statement .portReset := fun _ => by simp [bodyOf]

theorem stationRecordError (bytes : List Byte) : Statement (.stationRecordError bytes) := fun _ => by simp [bodyOf]

theorem frameTaken : Statement .frameTaken := fun _ => by simp [bodyOf]

theorem lengthCheck : Statement .lengthCheck := fun _ => by simp [bodyOf]

theorem vlanCheck : Statement .vlanCheck := fun _ => by simp [bodyOf]

theorem destinationCheck : Statement .destinationCheck := fun _ => by simp [bodyOf]

theorem sessionDispatch : Statement .sessionDispatch := fun _ => by simp [bodyOf]

theorem responderDispatch : Statement .responderDispatch := fun _ => by simp [bodyOf]

theorem ruleMatch : Statement .ruleMatch := fun _ => by simp [bodyOf]

theorem defaultAction : Statement .defaultAction := fun _ => by simp [bodyOf]

theorem periodExpiry (cls : PeriodClass) : Statement (.periodExpiry cls) := fun _ => by simp [bodyOf]

theorem leaseMarginReached (entry : Nat) : Statement (.leaseMarginReached entry) := fun _ => by simp [bodyOf]

theorem leaseDeadline (entry : Nat) : Statement (.leaseDeadline entry) := fun _ => by simp [bodyOf]

theorem reportDeadline (entry : Nat) : Statement (.reportDeadline entry) := fun _ => by simp [bodyOf]

theorem dueExpiry (session : Nat) : Statement (.dueExpiry session) := fun _ => by simp [bodyOf]

theorem probeTimerExpiry (session : Nat) : Statement (.probeTimerExpiry session) := fun _ => by simp [bodyOf]

theorem wakeResponseExpiry : Statement .wakeResponseExpiry := fun _ => by simp [bodyOf]

theorem retryGapExpiry : Statement .retryGapExpiry := fun _ => by simp [bodyOf]

theorem claimWindowExpiry : Statement .claimWindowExpiry := fun _ => by simp [bodyOf]

end BodyWithinFrame

end Sys2Proof.Laws
end

