-- ==== Sys2Proof/Laws/Pins.lean ====
section
/-! SUPPORT. What the operations that move the stand-in state, the host port or the wake unit do to the outputs' invariant. -/

namespace Sys2Proof.Machine

open Sys2Proof

/-- PinsOk reads the controller, the wake unit and three items of the host port only. -/
theorem PinsOk_of_eq {s t : State} (hc : t.controller = s.controller) (hw : t.wake = s.wake)
    (ha : t.host.attn = s.host.attn) (hr : t.host.reply = s.host.reply) (hn : t.host.notices = s.host.notices)
    (h : PinsOk s) : PinsOk t := by
  unfold PinsOk ControllerOk AttnOk attnLevel at *
  rw [hc, hw, ha, hr, hn]
  exact h

theorem changeState_standIn (new : StandIn) (reason : Reason) (s : State) :
    (changeState new reason s).controller.standIn = new := rfl

theorem changeState_drain (new : StandIn) (reason : Reason) (s : State) :
    (changeState new reason s).controller.drain = s.controller.drain := by simp [changeState]

theorem changeState_depth (new : StandIn) (reason : Reason) (s : State) :
    (changeState new reason s).controller.depth = s.controller.depth := by simp [changeState]

theorem changeState_divert (new : StandIn) (reason : Reason) (s : State) :
    (changeState new reason s).controller.divert = (new != .attended) := rfl

theorem queueNotice_attn (n : Notice) (s : State) (h : AttnOk s) : AttnOk (queueNotice n s) := by
  unfold queueNotice
  split
  · simp [AttnOk, attnLevel]
  · simpa [AttnOk, attnLevel] using h

theorem produceReply_attn (tag : Byte) (body : List Byte) (s : State) : AttnOk (produceReply tag body s) := by
  simp [AttnOk, attnLevel, produceReply]

theorem changeState_host (new : StandIn) (reason : Reason) (s : State) :
    (changeState new reason s).host = (queueNotice (stateNotice s new reason) s).host := rfl

theorem changeState_attn (new : StandIn) (reason : Reason) (s : State) (h : AttnOk s) :
    AttnOk (changeState new reason s) := by
  have := queueNotice_attn (stateNotice s new reason) s h
  unfold AttnOk at *
  rw [changeState_host]
  exact this

theorem replyInFlight_attn (body : List Byte) (s : State) (h : AttnOk s) : AttnOk (replyInFlight body s) := by
  unfold replyInFlight
  split
  · exact produceReply_attn _ _ _
  · exact h

/-- A change of state to any but RETURNING keeps the invariant where the calling sequence allows the new state. -/
theorem changeState_pins (new : StandIn) (reason : Reason) (s : State) (h : PinsOk s)
    (hd : s.controller.drain = (new == .returning)) (hc : CallingOk new s.wake) :
    PinsOk (changeState new reason s) := by
  refine ⟨⟨rfl, ?_⟩, changeState_attn _ _ _ h.2.1, ?_, ?_⟩
  · rw [changeState_drain, hd]; rfl
  · simpa using h.2.2.1
  · simpa [changeState_standIn] using hc

theorem PinsOk.phase_none {s : State} (h : PinsOk s) (h1 : s.controller.standIn ≠ .standing)
    (h2 : s.controller.standIn ≠ .calling) : s.wake.phase = .none := by
  have hc := h.2.2.2
  unfold CallingOk at hc
  split at hc <;> simp_all

theorem PinsOk.drain_false {s : State} (h : PinsOk s) (h1 : s.controller.standIn ≠ .returning) :
    s.controller.drain = false := by
  rw [h.1.2]
  cases hst : s.controller.standIn <;> simp_all

theorem startAttempt_pins (s : State) (h1 : ControllerOk s) (h2 : AttnOk s) (h3 : s.controller.standIn = .calling)
    (h4 : s.wake.hostupFiltered = false) : PinsOk (startAttempt s) := by
  simp_all [PinsOk, ControllerOk, AttnOk, startAttempt, PhaseOk, CallingOk, startTimer]

theorem startClaim_pins (s : State) (h1 : ControllerOk s) (h2 : AttnOk s)
    (h3 : s.controller.standIn = .standing ∨ s.controller.standIn = .calling)
    (h4 : s.wake.hostupFiltered = true) : PinsOk (startClaim s) := by
  simp_all [PinsOk, ControllerOk, AttnOk, startClaim, PhaseOk, CallingOk, startTimer]

theorem beginCalling_pins (s : State) (h1 : ControllerOk s) (h2 : AttnOk s) (h3 : s.controller.standIn = .calling)
    (h4 : PhaseOk s.wake) (h5 : s.wake.phase = .none ∨ s.wake.phase = .claim) : PinsOk (beginCalling s) := by
  unfold beginCalling
  dsimp only
  split
  · split
    · rcases h5 with h5 | h5 <;>
        simp_all [PinsOk, ControllerOk, AttnOk, PhaseOk, CallingOk]
    · apply startClaim_pins <;> simp_all [ControllerOk, AttnOk]
  · apply startAttempt_pins <;> simp_all [ControllerOk, AttnOk]

/-- The entry to CALLING from STANDING keeps the invariant. -/
theorem enterCalling_pins (s : State) (h : PinsOk s) (hs : s.controller.standIn = .standing) :
    PinsOk (enterCalling s) := by
  have hd := h.drain_false (by simp [hs])
  have hc := h.2.2.2
  have hp : s.wake.phase = .none ∨ s.wake.phase = .claim := by
    unfold CallingOk at hc
    split at hc <;> simp_all
  apply beginCalling_pins
  · exact ⟨rfl, by rw [changeState_drain, hd]; rfl⟩
  · exact changeState_attn _ _ _ h.2.1
  · rfl
  · simpa using h.2.2.1
  · simpa using hp

/-- Recording a cause touches the record, the slots, the lock and the count of the wake unit only. -/
theorem recordCause_keeps (r : Report) (now : Time) (w : WakeUnit) :
    (recordCause r now w).phase = w.phase ∧ (recordCause r now w).response = w.response
      ∧ (recordCause r now w).gap = w.gap ∧ (recordCause r now w).claim = w.claim
      ∧ (recordCause r now w).hostupLine = w.hostupLine ∧ (recordCause r now w).hostupFiltered = w.hostupFiltered
      ∧ (recordCause r now w).hostupSince = w.hostupSince ∧ (recordCause r now w).wakereq = w.wakereq
      ∧ (recordCause r now w).policy = w.policy ∧ (recordCause r now w).record.attempts = w.record.attempts
      ∧ (recordCause r now w).record.outcome = w.record.outcome
      ∧ (recordCause r now w).record.depth = w.record.depth := by
  unfold recordCause capture
  dsimp only
  (repeat' split) <;> simp [enableCause]

theorem withCause_pins (r : Report) (s : State) (h : PinsOk s) :
    PinsOk { s with wake := recordCause r s.time s.wake } := by
  have k := recordCause_keeps r s.time s.wake
  refine ⟨h.1, h.2.1, ?_, ?_⟩
  · simpa [PhaseOk, k] using h.2.2.1
  · simpa [CallingOk, k] using h.2.2.2

theorem reportCause_pins (r : Report) (s : State) (h : PinsOk s) : PinsOk (reportCause r s) := by
  unfold reportCause
  split
  · dsimp only
    split
    · rename_i hc
      simp only [Bool.and_eq_true, beq_iff_eq] at hc
      exact enterCalling_pins _ (withCause_pins r s h) hc.2
    · exact withCause_pins r s h
  · exact h

theorem foldl_pres {α : Type} (P : State → Prop) (f : State → α → State) (hf : ∀ s a, P s → P (f s a)) (l : List α)
    (s : State) (h : P s) : P (l.foldl f s) := by
  induction l generalizing s with
  | nil => exact h
  | cons a l ih => exact ih _ (hf _ _ h)

theorem reportAll_pins (rs : List Report) (s : State) (h : PinsOk s) : PinsOk (reportAll rs s) :=
  foldl_pres PinsOk _ (fun s a h => reportCause_pins a s h) rs s h

theorem reportTwo_pins (xs ys : List Report) (s : State) (h : PinsOk s) : PinsOk (reportTwo xs ys s) :=
  reportAll_pins _ _ h

theorem replyInFlight_pins (body : List Byte) (s : State) (h : PinsOk s) : PinsOk (replyInFlight body s) := by
  refine ⟨?_, replyInFlight_attn body s h.2.1, ?_, ?_⟩
  · simpa [ControllerOk] using h.1
  · simpa using h.2.2.1
  · simpa using h.2.2.2

/-- The end of arming keeps the invariant (R10, R11). -/
theorem endArming_pins (linkDown : Bool) (s : State) (h : PinsOk s) (hs : s.controller.standIn = .arming) :
    PinsOk (endArming linkDown s) := by
  have h0 := replyInFlight_pins (handOverReply linkDown s) s h
  have hp := h.phase_none (by simp [hs]) (by simp [hs])
  have h1 : PinsOk (changeState .standing .handedOver (replyInFlight (handOverReply linkDown s) s)) := by
    apply changeState_pins _ _ _ h0
    · rw [(replyInFlight_keeps _ _).2.1, h.drain_false (by simp [hs])]; rfl
    · simp [CallingOk, hp]
  have h2 : PinsOk
      { changeState .standing .handedOver (replyInFlight (handOverReply linkDown s) s) with
        wake :=
          { (changeState .standing .handedOver (replyInFlight (handOverReply linkDown s) s)).wake with
            claim := none, phase := .none } } := by
    refine ⟨h1.1, h1.2.1, ?_, ?_⟩
    · have := h.2.2.1
      simp_all [PhaseOk]
    · simp [CallingOk, changeState_standIn]
  unfold endArming
  dsimp only
  split
  · exact h2
  · exact enterCalling_pins _ h2 rfl

theorem checkArmingEnd_pins (s : State) (h : PinsOk s) : PinsOk (checkArmingEnd s) := by
  unfold checkArmingEnd
  split
  · exact endArming_pins _ _ h (by tauto)
  · exact h

/-- The end of a return keeps the invariant (R21, R22). -/
theorem endReturn_pins (reason : Reason) (s : State) (h : PinsOk s) (hs : s.controller.standIn = .returning) :
    PinsOk (endReturn reason s) := by
  have hp := h.phase_none (by simp [hs]) (by simp [hs])
  refine ⟨⟨rfl, ?_⟩, changeState_attn _ _ _ h.2.1, ?_, ?_⟩
  · simp [endReturn, changeState_drain, changeState_standIn]
  · simpa using h.2.2.1
  · simp [CallingOk, hp, endReturn, changeState_standIn]

theorem checkDrained_pins (s : State) (h : PinsOk s) : PinsOk (checkDrained s) := by
  unfold checkDrained
  split
  · rename_i hd
    exact endReturn_pins _ _ h (by simp [drainComplete] at hd; tauto)
  · exact h

theorem settle_pins (d : Disposition) (s : State) (h : PinsOk s) : PinsOk (settle d s) :=
  checkDrained_pins _ (PinsOk_of_eq (s := s) rfl rfl rfl rfl rfl h)

theorem cutReturn_pins (s : State) (h : PinsOk s) (hs : s.controller.standIn = .returning) : PinsOk (cutReturn s) :=
  endReturn_pins _ _ (PinsOk_of_eq (s := s) rfl rfl rfl rfl rfl h) hs

/-- The entry to RETURNING keeps the invariant (R17, R148). -/
theorem enterReturning_pins (reason : Reason) (outcome : WakeOutcome) (s : State) (h : PinsOk s) :
    PinsOk (enterReturning reason outcome s) := by
  unfold enterReturning
  dsimp only
  apply checkDrained_pins
  have ha := changeState_attn .returning reason s h.2.1
  refine ⟨⟨?_, ?_⟩, ?_, ?_, ?_⟩
  · simp [changeState_divert, changeState_standIn]
  · simp [changeState_standIn]
  · simpa [AttnOk] using ha
  · simp [PhaseOk, freezeWake]
  · simp [CallingOk, freezeWake, changeState_standIn]

theorem loseSession_pins (i : Nat) (s : State) (h : PinsOk s) : PinsOk (loseSession i s) :=
  reportCause_pins _ _ (PinsOk_of_eq (s := s) rfl rfl rfl rfl rfl h)

theorem loseSessions_pins (entry : Nat) (s : State) (h : PinsOk s) : PinsOk (loseSessions entry s) :=
  foldl_pres PinsOk _ (fun s i h => loseSession_pins i s h) _ s h

theorem leaveActive_pins (i : Nat) (s : State) (h : PinsOk s) : PinsOk (leaveActive i s) := by
  unfold leaveActive
  dsimp only
  split
  · exact checkArmingEnd_pins _ (loseSessions_pins _ _ (PinsOk_of_eq (s := s) rfl rfl rfl rfl rfl h))
  · exact PinsOk_of_eq (s := s) rfl rfl rfl rfl rfl h

/-- The link going DOWN keeps the invariant (R157). -/
theorem loseLink_pins (record : LinkRecord) (s : State) (h : PinsOk s) : PinsOk (loseLink record s) := by
  have h1 : PinsOk (queueNotice (linkNotice s false record) { s with port := { s.port with linkUp := false } }) := by
    refine ⟨?_, queueNotice_attn _ _ h.2.1, ?_, ?_⟩
    · simpa [ControllerOk] using h.1
    · simpa using h.2.2.1
    · simpa using h.2.2.2
  have h2 := reportCause_pins { cause := .link, origin := none, frame := none } _ h1
  unfold loseLink
  dsimp only
  split
  · exact endArming_pins _ _ h2 (by assumption)
  · exact h2

end Sys2Proof.Machine
end

