-- ==== Sys2Proof/Laws/State.lean ====
section
/-! SUPPORT. What each named update writes: one lemma per field per update, by computation. -/

namespace Sys2Proof.Machine

open Sys2Proof

@[simp] theorem count_counters (c : Counter) (n : Nat) (s : State) :
    (count c n s).counters = s.counters.add c n := rfl

@[simp] theorem setPrevious_host (o : FrameOutcome) (s : State) :
    (setPrevious o s).host = { s.host with previous := o } := rfl

@[simp] theorem produceReply_host (tag : Byte) (body : List Byte) (s : State) :
    (produceReply tag body s).host = { s.host with reply := some { tag := tag, body := body }, attn := true } := rfl

@[simp] theorem refuse_host (tag : Byte) (status : Status) (s : State) :
    (refuse tag status s).host = { s.host with reply := some { tag := tag, body := [status.code] }, attn := true } := rfl

@[simp] theorem okReply_host (tag : Byte) (rest : List Byte) (s : State) :
    (okReply tag rest s).host =
      { s.host with reply := some { tag := tag, body := Status.ok.code :: rest }, attn := true } := rfl

@[simp] theorem sendRecord_port (r : StationOut) (s : State) :
    (sendRecord r s).port = { s.port with sent := s.port.sent ++ [r] } := rfl

@[simp] theorem sendReady_port (s : State) :
    (sendReady s).port = { s.port with sent := s.port.sent ++ [.ready (6 - s.port.rxBuffer.length)] } := rfl

@[simp] theorem changeState_controller (new : StandIn) (reason : Reason) (s : State) :
    (changeState new reason s).controller =
      { (queueNotice (stateNotice s new reason) s).controller with standIn := new, divert := new != .attended } := rfl

@[simp] theorem modifyEntry_responder (i : Nat) (f : IdentityEntry → IdentityEntry) (s : State) :
    (modifyEntry i f s).responder = { s.responder with entries := modifyAt s.responder.entries i f } := rfl

@[simp] theorem modifySession_keeper (i : Nat) (f : Session → Session) (s : State) :
    (modifySession i f s).keeper = { s.keeper with sessions := modifyAt s.keeper.sessions i f } := rfl

@[simp] theorem writeEntry_responder (i : Nat) (e : Option IdentityEntry) (s : State) :
    (writeEntry i e s).responder = { s.responder with entries := s.responder.entries.set i e } := rfl

@[simp] theorem writeSession_keeper (i : Nat) (x : Option Session) (s : State) :
    (writeSession i x s).keeper = { s.keeper with sessions := s.keeper.sessions.set i x } := rfl

@[simp] theorem writeTemplate_builder (i : Nat) (t : Option Template) (s : State) :
    (writeTemplate i t s).builder = { templates := s.builder.templates.set i t } := rfl

@[simp] theorem writeRules_rules (new : List Rule) (place : Nat → Option Nat) (s : State) :
    (writeRules new place s).classifier.rules = new := rfl

@[simp] theorem writeRules_periods (new : List Rule) (place : Nat → Option Nat) (s : State) :
    (writeRules new place s).classifier.periods = s.classifier.periods := rfl

@[simp] theorem writePolicy_wake (p : Policy) (s : State) :
    (writePolicy p s).wake = { s.wake with policy := p } := rfl

@[simp] theorem supersede_rules (f : Superseded → Superseded) (s : State) :
    (supersede f s).classifier.rules = s.classifier.rules := rfl

@[simp] theorem supersede_periods (f : Superseded → Superseded) (s : State) :
    (supersede f s).classifier.periods = s.classifier.periods := rfl

@[simp] theorem supersede_frame (f : Superseded → Superseded) (s : State) : sameFrame s (supersede f s) := by
  cases h : s.classifier.current <;> simp [sameFrame, supersede, h]

@[simp] theorem updateLevel_queue (s : State) : (updateLevel s).hold.queue = s.hold.queue := rfl

@[simp] theorem updateLevel_forgotten (s : State) : (updateLevel s).hold.forgotten = s.hold.forgotten := rfl

@[simp] theorem updateLevel_level (s : State) :
    (updateLevel s).hold.level = levelOf s.wake.policy.highMark s.hold.queue := rfl

@[simp] theorem advance_rules (k : ClassStep) (s : State) :
    (advance k s).classifier.rules = s.classifier.rules := rfl

@[simp] theorem releaseEvidence_wake (s : State) :
    (releaseEvidence s).wake = { s.wake with slotA := none, slotB := none, lock := false, uncaptured := 0 } := rfl

@[simp] theorem reqStatusClear_counters (tag : Byte) (s : State) : (reqStatusClear tag s).counters = zeroCounters := rfl

/-- A counter raised shows its new value; every other counter stands (R180). -/
@[simp] theorem get_add (k : Counters) (c c' : Counter) (n : Nat) :
    (k.add c n).get c' = if c = c' then satAdd max32 (k.get c) n else k.get c' := by
  cases c <;> (try (rename_i x; cases x))
  all_goals cases c' <;> (try (rename_i y; cases y))
  all_goals rfl

/-- Two tables of counters with equal values are equal. -/
theorem Counters.ext_get (k l : Counters) (h : ∀ c, k.get c = l.get c) : k = l := by
  cases k
  cases l
  have h0 := fun c => h c
  simp only [Counters.mk.injEq]
  exact ⟨h0 .framesReceived, h0 .receiveRefused, h0 .recordErrors, h0 .framesTaken, h0 .filtered,
    h0 (.settled .discarded), h0 (.settled .answered), h0 (.settled .absorbed), h0 (.settled .held),
    h0 (.dropped .answer), h0 (.dropped .ack), h0 (.dropped .announce), h0 (.dropped .probe), h0 (.dropped .report),
    h0 (.transmitted .answer), h0 (.transmitted .ack), h0 (.transmitted .announce), h0 (.transmitted .probe),
    h0 (.transmitted .report), h0 .txRefused, h0 .overBudget, h0 .templateShort, h0 .holdRefused, h0 .displaced,
    h0 .delivered, h0 .cutDiscarded, h0 .conflicts, h0 .hostBadCheck, h0 .hostShort, h0 .hostBusy⟩

@[simp] theorem zeroCounters_get (c : Counter) : zeroCounters.get c = 0 := by
  cases c <;> (try (rename_i x; cases x))
  all_goals rfl

end Sys2Proof.Machine
end

