-- ==== Sys2Proof/Tests/Slice0.lean ====
section
/-! SUPPORT. The model's own tests: a term that each well-formedness check refuses, one or two small steps of each command, and, for each
statement with hypotheses, states and operands that meet them. -/

namespace Sys2Proof.Tests

set_option Elab.async false

open Sys2Proof Sys2Proof.Machine

/-! The states of the tests. -/

/-- The next state of a command. -/
def run (c : Instr) (s : State) : State :=
  match exec c s with
  | .next t => t
  | _ => s

/-- The body of the reply that waits. -/
def replyOf (s : State) : List Byte :=
  match s.host.reply with
  | some r => r.body
  | none => []

def mac0 : Mac := [2, 0, 0, 0, 0, 1]

def macP : Mac := [2, 0, 0, 0, 0, 9]

def ipA : Addr := [10, 20, 30, 41]

def ipP : Addr := [10, 9, 0, 5]

def groupA : Addr := [239, 1, 2, 3]

def entryLink : IdentityEntry := freshEntry .link 0 mac0 0 false false none

def entryIp : IdentityEntry := freshEntry .ipv4 0 ipA 0 true true (some { start := 0, seconds := 600 })

def entryGroup : IdentityEntry := freshEntry .group4 0 groupA 0 false false none

/-- A session as SESSION PUT leaves it. -/
def sessionA : Session :=
  { localIndex := 1, localPort := 51544, remoteAddr := ipP, remotePort := 993, nextHop := macP,
    sndNxt := 0x3A6B0010, rcvNxt := 0x91C20400, window := 64240, interval := 600, timeout := 5, limit := 3,
    idleAge := 420, state := .ready, atReturn := none, outstanding := 0, phase := .none, nextDue := none,
    deadline := none, lastHeard := none, probesSent := 0, peerAcks := 0, peerProbes := 0, dataHeld := 0,
    outOfWindow := 0, probeId := 0, firstProbe := 0 }

/-- The session of a stand-in: due at time 600000. -/
def sessionR : Session := { sessionA with lastHeard := some 0, nextDue := some 600000 }

/-- The session with its probe timer started at time 0. -/
def sessionP : Session :=
  { sessionA with
    state := .probing, outstanding := 1, phase := .timing, lastHeard := some 0, deadline := some 5000, probeId := 4 }

def anyFields : MatchFields :=
  { vlan := none, etherType := none, ipVersion := none, ipProto := none, source := none, destIndex := none,
    ports := none, tcpFlags := none, pattern := none }

/-- A rule that matches every frame. -/
def ruleOf (a : RuleAction) : Rule :=
  { fields := anyFields, action := a, limit := 1, period := .p0, overflow := .discard, hits := 0, overflows := 0 }

/-- A template of 42 bytes, patched with the source's MAC. -/
def templateA : Template :=
  { bytes := List.replicate 42 0, patches := [.macFromSource], headerWords := [0], built := 0, failed := 0 }

/-- A template that asks for a source port. -/
def templateB : Template := { templateA with patches := [.portFromSource 34] }

def entriesA : List (Option IdentityEntry) :=
  [some entryLink, some entryIp, some entryGroup] ++ List.replicate 21 none

/-- ATTENDED with the host's tables written, the link UP and no notice waiting. -/
def attended : State :=
  { State.reset with
    responder := { State.reset.responder with entries := entriesA }
    keeper := { sessions := some sessionA :: List.replicate 11 none, nextProbe := 5 }
    builder := { templates := some templateA :: some templateB :: List.replicate 6 none }
    port := { State.reset.port with linkUp := true }
    host := { State.reset.host with notices := [], attn := false } }

/-- A stand-in in a state, at depth LIGHT. -/
def standIn (st : StandIn) : State :=
  { attended with
    controller := { standIn := st, depth := some .light, divert := true, drain := st == .returning }
    wake := { attended.wake with record := { emptyRecord with depth := some .light } }
    keeper := { sessions := some sessionR :: List.replicate 11 none, nextProbe := 5 } }

def standing : State := standIn .standing

/-- STANDING, and no cause enabled. -/
def quiet : State :=
  { standing with wake := { standing.wake with policy := { defaultPolicy with light := 0, deep := 0 } } }

/-- CALLING in a phase with its timer started at time 0. -/
def calling (p : CallPhase) : State :=
  { standIn .calling with
    wake :=
      { (standIn .calling).wake with
        phase := p
        wakereq := p == .asserting
        response := if p = .asserting then some { start := 0, length := 10000 } else none
        gap := if p = .gap then some { start := 0, length := 1000 } else none
        claim := if p = .claim then some { start := 0, length := 20000 } else none
        hostupLine := p == .claim
        hostupFiltered := p == .claim
        record := { emptyRecord with depth := some .light, attempts := 1 } } }

/-- A state at a time. -/
def at' (t : Nat) (s : State) : State := { s with time := BitVec.ofNat 32 t }

/-- A state with a frame at a step of its classification. -/
def classifying (k : ClassStep) (f : List Byte) (s : State) : State :=
  { s with
    classifier :=
      { s.classifier with
        current := some { frame := f, step := k, reached4 := false, superseded := noneSuperseded } } }

/-- A state with the HOSTUP line held at a level since time 0. -/
def lineHeld (high : Bool) (s : State) : State :=
  { s with wake := { s.wake with hostupLine := high, hostupFiltered := !high, hostupSince := some 0 } }

/-- A state with rules. -/
def withRules (rs : List Rule) (s : State) : State := { s with classifier := { s.classifier with rules := rs } }

/-- A held frame. -/
def held (d : Delivery) (n : Nat) : HeldFrame :=
  { arrival := 0, source := .byDefault, kept := false, vlan := 0, bytes := List.replicate n 0, delivery := d }

/-- A state with a hold queue. -/
def withHeld (q : List HeldFrame) (s : State) : State := { s with hold := { s.hold with queue := q } }

/-- A state with the link DOWN. -/
def down (s : State) : State := { s with port := { s.port with linkUp := false } }

/-- A state with n slots of the transmit queue taken. -/
def withSlots (n : Nat) (s : State) : State :=
  { s with
    port := { s.port with txQueue := List.replicate n { kind := .answer, owner := .untold, frame := [] } } }

/-- A transaction under way whose frame out is chosen. -/
def clocking (f : FrameOut) (s : State) : State :=
  { s with host := { s.host with hcsLow := true, frameOut := some f } }

def emptyOut : FrameOut := { kind := .empty, tag := 0, outcome := .none, body := [] }

/-! The frames of the tests. -/

/-- An ARP packet from the peer. -/
def arpFrame (op : Nat) (spa tpa : Addr) : List Byte :=
  ethernet broadcastMac macP [] 0x0806 (arpPacket op macP spa (zeros 6) tpa)

/-- A TCP segment of the session's peer. -/
def segment (seq ack : Nat) (flags : Byte) (data : List Byte) : List Byte :=
  ethernet mac0 macP [] 0x0800
    (ip4Header 64 6 ipP ipA (20 + data.length)
      ++ (be16 993 ++ be16 51544 ++ be32 seq ++ be32 ack ++ [0x50, flags] ++ be16 1000 ++ zeros 4 ++ data))

/-- An IGMP query for a group. -/
def queryFrame (group : Addr) : List Byte :=
  ethernet allHostsMac macP [] 0x0800
    (ip4Header 1 2 ipP [224, 0, 0, 1] 8 ++ icmpMessage ([0x11, 10, 0, 0] ++ group))

/-- An MLD query for every group. -/
def mldFrame : List Byte :=
  let src : Addr := [0xFE, 0x80] ++ zeros 13 ++ [9]
  ethernet allNodesMac macP [] 0x86DD
    (ip6Header 58 1 src allNodes 24 ++ icmp6Message src allNodes ([130, 0, 0, 0, 3, 232, 0, 0] ++ zeros 16))

/-- An ICMP echo request. -/
def echoFrame : List Byte :=
  ethernet mac0 macP [] 0x0800 (ip4Header 64 1 ipP ipA 12 ++ icmpMessage [8, 0, 0, 0, 0, 1, 0, 2, 1, 2, 3, 4])

/-- A frame of no protocol that the part answers. -/
def plainFrame : List Byte := ethernet mac0 macP [] 0x88B5 (zeros 46)

/-! Well-formedness: a term that each check refuses, and its neighbour that passes. -/

def longBody : List Byte := List.replicate 1601 0

theorem test_wf_bodies :
    (∀ k : RequestKind, (requestCommand k 0 longBody).wellFormed = false)
      ∧ (∀ k : RequestKind, (requestCommand k 0 longBody.tail).wellFormed = true) := by
  constructor <;> intro k <;> cases k <;> decide +kernel

theorem test_wf_status_clear_is_its_own : (Instr.status 0 [1]).wellFormed = false := by decide +kernel

theorem test_wf_rxFrame :
    (Instr.rxFrame []).wellFormed = false ∧ (Instr.rxFrame longBody).wellFormed = false
      ∧ (Instr.rxFrame longBody.tail).wellFormed = true := by decide +kernel

theorem test_wf_stationRecordError :
    (Instr.stationRecordError (StationIn.bytes .linkUp)).wellFormed = false
      ∧ (Instr.stationRecordError [0x5C]).wellFormed = true := by decide +kernel

theorem test_wf_indexes :
    (Instr.leaseMarginReached 24).wellFormed = false ∧ (Instr.leaseDeadline 24).wellFormed = false
      ∧ (Instr.reportDeadline 24).wellFormed = false ∧ (Instr.dueExpiry 12).wellFormed = false
      ∧ (Instr.probeTimerExpiry 12).wellFormed = false ∧ (Instr.reportDeadline 23).wellFormed = true
      ∧ (Instr.dueExpiry 11).wellFormed = true := by decide +kernel

/-! One step of each command. -/

theorem test_crc_of_the_digits : crc16 [49, 50, 51, 52, 53, 54, 55, 56, 57] = 0x29B1 := by decide +kernel

theorem test_fullReset : run (.fullReset false false) standing = State.reset := by decide +kernel

theorem test_fullReset_in_transaction :
    (run (.fullReset true true) standing).host.frameOut = some { emptyOut with kind := .wait }
      ∧ (run (.fullReset true true) standing).wake.hostupSince = some 0 := by decide +kernel

theorem test_hostupLineChange :
    (run (.hostupLineChange true) (at' 7 standing)).wake.hostupSince = some 7
      ∧ (run (.hostupLineChange false) (lineHeld true standing)).wake.hostupSince = none := by decide +kernel

theorem test_hostupRiseTaken :
    (run .hostupRiseTaken (at' 20 (lineHeld true standing))).wake.claim = some { start := 20, length := 20000 }
      ∧ run .hostupRiseTaken (at' 19 (lineHeld true standing)) = at' 19 (lineHeld true standing) := by decide +kernel

theorem test_hostupFallTaken :
    (run .hostupFallTaken (at' 20 (lineHeld false (standIn .returning)))).controller.standIn = .attended
      ∧ (run .hostupFallTaken (at' 20 (lineHeld false (calling .claim)))).wake.phase = .asserting := by decide +kernel

theorem test_hcsFall :
    (run .hcsFall attended).host.frameOut = some emptyOut
      ∧ (run .hcsFall { attended with host := { attended.host with inFlight := some 9 } }).host.frameOut
          = some { emptyOut with kind := .wait, tag := 9 } := by decide +kernel

theorem test_hcsRise_runs_a_nop :
    replyOf (run (.hcsRise (hostFrame 0x01 0x21 0 [])) (clocking emptyOut attended)) = [0, 0, 0, 0, 0, 0, 0, 0] := by
  decide +kernel

theorem test_hcsRise_judges_a_short_frame :
    (run (.hcsRise [0xA6, 1]) (clocking emptyOut attended)).host.previous = .short := by decide +kernel

theorem test_nop : replyOf (run (.nop 1 []) (at' 258 attended)) = [0, 0, 0, 1, 2, 0, 0, 0] := by decide +kernel

theorem test_handOver :
    (run (.handOver 3 [0]) attended).controller.standIn = .arming
      ∧ (run (.handOver 3 [0]) attended).port.txQueue.map (fun x => x.kind) = [.announce, .report] := by decide +kernel

theorem test_handOver_with_no_address :
    replyOf (run (.handOver 3 [0]) State.reset) = [9] := by decide +kernel

theorem test_takeBack :
    (run (.takeBack 3 []) standing).controller.standIn = .attended
      ∧ (run (.takeBack 3 []) (withHeld [held .waiting 60] standing)).controller.standIn = .returning := by
  decide +kernel

theorem test_identityPut :
    (run (.identityPut 1 (entryPut 3 { entryIp with addr := ipP })) attended).responder.entries.getD 3 none
        = some { entryIp with addr := ipP }
      ∧ replyOf (run (.identityPut 1 (entryPut 3 entryIp)) attended) = [6] := by decide +kernel

theorem test_identityDrop :
    replyOf (run (.identityDrop 1 [0]) attended) = [7]
      ∧ (run (.identityDrop 1 [2]) attended).responder.entries.getD 2 none = none := by decide +kernel

theorem test_identityList :
    (replyOf (run (.identityList 1 [2]) attended)).length = 3 + 14 + 20
      ∧ replyOf (run (.identityList 1 [24]) attended) = [2] := by decide +kernel

theorem test_rulePut :
    (run (.rulePut 1 (0 :: ruleBytes (ruleOf .wake))) attended).classifier.rules = [ruleOf .wake] := by decide +kernel

theorem test_ruleDrop :
    (run (.ruleDrop 1 [0]) (withRules [ruleOf .wake, ruleOf .echo] attended)).classifier.rules = [ruleOf .echo] := by
  decide +kernel

theorem test_ruleList :
    replyOf (run (.ruleList 1 [0]) (withRules [ruleOf .wake] attended))
      = [0, 1, 0, 0, 0, 2, 0, 0, 0, 0, 1, 0, 0, 0, 0, 0, 0, 0xFF] := by decide +kernel

theorem test_templatePut :
    replyOf (run (.templatePut 1 ([2, 0, 42, 0] ++ zeros 42)) attended) = [0, 0, 126] := by decide +kernel

theorem test_templateDrop :
    replyOf (run (.templateDrop 1 [0]) attended) = [0, 0, 42]
      ∧ replyOf (run (.templateDrop 1 [0]) (withRules [ruleOf (.template 0)] attended)) = [7] := by decide +kernel

theorem test_templateList : (replyOf (run (.templateList 1 [1]) attended)).length = 5 + 4 + 8 + 42 + 9 := by
  decide +kernel

theorem test_sessionPut :
    (run (.sessionPut 1 (sessionPutBytes 2 { sessionA with localPort := 7 })) attended).keeper.sessions.getD 2 none
        = some { sessionA with localPort := 7, firstProbe := 5 }
      ∧ replyOf (run (.sessionPut 1 (sessionPutBytes 2 sessionA)) attended) = [6] := by decide +kernel

theorem test_sessionDrop : (run (.sessionDrop 1 [0]) attended).keeper.sessions = List.replicate 12 none := by
  decide +kernel

theorem test_sessionGet : (replyOf (run (.sessionGet 1 [0]) attended)).length = 3 + 34 + 38 := by decide +kernel

theorem test_policySet :
    replyOf (run (.policySet 1 [0, 0, 1, 0, 24, 1, 0, 2, 0, 10, 0, 1]) attended) = [2]
      ∧ (run (.policySet 1 [0, 0, 1, 0, 25, 1, 0, 2, 0, 10, 0, 1]) attended).wake.policy.highMark = 25 := by
  decide +kernel

theorem test_policyGet :
    replyOf (run (.policyGet 1 []) attended) = [0, 0x7D, 0x19, 0, 1, 75, 10, 3, 20, 1, 44, 0, 20] := by decide +kernel

theorem test_wakeRecord :
    replyOf (run (.wakeRecord 1 []) (at' 1000 (calling .asserting)))
      = [0, 0, 0, 0, 0, 1, 0, 255, 255, 255, 255, 1, 0, 0, 35, 40, 1, 0] := by decide +kernel

theorem test_evidenceRead : (replyOf (run (.evidenceRead 1 []) standing)).length = 5 + 202 + 202 := by decide +kernel

theorem test_evidenceRelease :
    replyOf (run (.evidenceRelease 1 []) { standing with wake := { standing.wake with uncaptured := 258 } })
      = [0, 0, 1, 2] := by decide +kernel

theorem test_holdStatus :
    (replyOf (run (.holdStatus 1 [0]) (withHeld [held .waiting 60] standing))).length = 2 + 28 + 12 + 1 := by
  decide +kernel

theorem test_status : (replyOf (run (.status 1 [0]) attended)).length = 143 ∧ replyOf (run (.status 1 [2]) attended) = [2] := by
  decide +kernel

theorem test_statusClear :
    (run (.statusClear 1) (count .delivered 4 attended)).counters = zeroCounters := by decide +kernel

theorem test_clearAll : (run (.clearAll 1 []) attended).responder.entries = List.replicate 24 none := by decide +kernel

theorem test_rxFrame : (run (.rxFrame plainFrame) attended).port.rxBuffer = [plainFrame] := by decide +kernel

theorem test_txDone :
    (run .txDone (withSlots 2 standing)).port.txQueue.length = 1
      ∧ (run .txDone (withSlots 2 standing)).counters.sentAnswer = 1 := by decide +kernel

theorem test_txRefused : (run .txRefused (withSlots 1 standing)).counters.txRefused = 1 := by decide +kernel

theorem test_deliverDone :
    (run .deliverDone (withHeld [held .inFlight 60, held .waiting 61] (standIn .returning))).hold.queue
      = [held .inFlight 61] := by decide +kernel

theorem test_linkUp :
    (run .linkUp (down standing)).port.txQueue.map (fun x => x.kind) = [.announce, .report] := by decide +kernel

theorem test_linkDown : (run .linkDown standing).wake.record.noted = 2 := by decide +kernel

theorem test_portReset :
    (run .portReset (withSlots 3 standing)).port = { State.reset.port with sent := [.ready 6, .ready 6] }
      ∧ (run .portReset (withSlots 3 standing)).counters.droppedAnswer = 3 := by decide +kernel

theorem test_stationRecordError :
    (run (.stationRecordError [0x5C, 5, 0, 0, 0, 0]) attended).counters.recordErrors = 1 := by decide +kernel

/-- A state with a frame in the receive buffer. -/
def received (s : State) : State := { s with port := { s.port with rxBuffer := [plainFrame] } }

theorem test_frameTaken :
    (run .frameTaken (received attended)).counters.discarded = 1
      ∧ (run .frameTaken (received standing)).classifier.current.isSome = true := by decide +kernel

theorem test_lengthCheck :
    (run .lengthCheck (classifying .length (zeros 13) standing)).counters.filtered = 1
      ∧ run .lengthCheck (classifying .length plainFrame standing) = classifying .vlan plainFrame standing := by
  decide +kernel

theorem test_vlanCheck :
    run .vlanCheck (classifying .vlan plainFrame standing) = classifying .destination plainFrame standing := by
  decide +kernel

theorem test_destinationCheck :
    run .destinationCheck (classifying .destination plainFrame standing) = classifying .session plainFrame standing := by
  decide +kernel

theorem test_sessionDispatch :
    (run .sessionDispatch (classifying .session (segment 0x91C20400 0x3A6B0010 0x10 []) standing)).counters.absorbed = 1
      ∧ (run .sessionDispatch
          (classifying .session (segment 0x91C20400 0x3A6B0010 0x18 [1, 2]) standing)).controller.standIn = .calling := by
  decide +kernel

theorem test_responderDispatch :
    (run .responderDispatch (classifying .responder (arpFrame 1 ipP ipA) standing)).port.txQueue.map (fun x => x.frame)
      = [ethernet macP mac0 [] 0x0806 (arpPacket 2 mac0 ipA macP ipP)] := by decide +kernel

theorem test_ruleMatch :
    (run .ruleMatch (classifying .rule echoFrame (withRules [ruleOf .echo] standing))).counters.answered = 1
      ∧ (run .ruleMatch (classifying .rule plainFrame (withRules [ruleOf .wake] standing))).wake.record.primary = some .rule := by
  decide +kernel

theorem test_defaultAction :
    (run .defaultAction (classifying .default plainFrame standing)).counters.discarded = 1 := by decide +kernel

theorem test_periodExpiry :
    (run (.periodExpiry .p0) (at' 100 (withRules [{ ruleOf .echo with hits := 1 }] standing))).classifier.rules
      = [ruleOf .echo] := by decide +kernel

theorem test_leaseMarginReached :
    (run (.leaseMarginReached 1) (at' 300000 standing)).wake.record.noted = 32 := by decide +kernel

theorem test_leaseDeadline :
    ((run (.leaseDeadline 1) (at' 600000 standing)).responder.entries.getD 1 none).map (fun e => e.state)
      = some .expired := by decide +kernel

/-- A state whose group entry waits for a report asked for at time 0. -/
def reporting (s : State) : State :=
  { s with
    responder :=
      { s.responder with
        entries :=
          entriesA.set 2
            (some { entryGroup with report := some { start := 0, length := 500, form := .short, due := false } }) } }

theorem test_reportDeadline :
    (run (.reportDeadline 2) (at' 500 (reporting standing))).port.txQueue.length = 1 := by decide +kernel

theorem test_dueExpiry :
    ((run (.dueExpiry 0) (at' 600000 standing)).keeper.sessions.getD 0 none).map (fun x => (x.state, x.phase))
      = some (.probing, .queued) := by decide +kernel

/-- A stand-in whose session's probe timer runs from time 0. -/
def probing : State := { standing with keeper := { sessions := some sessionP :: List.replicate 11 none, nextProbe := 5 } }

theorem test_probeTimerExpiry :
    ((run (.probeTimerExpiry 0) (at' 5000 probing)).keeper.sessions.getD 0 none).map (fun x => x.outstanding) = some 2 := by
  decide +kernel

theorem test_wakeResponseExpiry :
    (run .wakeResponseExpiry (at' 10000 (calling .asserting))).wake.phase = .gap := by decide +kernel

theorem test_retryGapExpiry : (run .retryGapExpiry (at' 1000 (calling .gap))).wake.record.attempts = 2 := by
  decide +kernel

theorem test_claimWindowExpiry :
    (run .claimWindowExpiry (at' 20000 (calling .claim))).wake.record.outcome = .selfReturn := by decide +kernel

/-! Witnesses: states and operands that meet the hypotheses of each statement, clause by clause. -/

theorem test_witness_OwnEventsAndTime :
    attended.pending = [] ∧ ownEvents attended = [] ∧ ownEvents (received attended) ≠ []
      ∧ (∀ c ∈ [Instr.hostupRiseTaken, .hostupFallTaken, .frameTaken, .wakeResponseExpiry, .retryGapExpiry,
          .claimWindowExpiry, .periodExpiry .p3, .lengthCheck, .vlanCheck, .destinationCheck, .sessionDispatch,
          .responderDispatch, .ruleMatch, .defaultAction, .leaseMarginReached 1, .leaseDeadline 1, .reportDeadline 2,
          .dueExpiry 0, .probeTimerExpiry 0], c ∉ ownEvents attended) := by decide +kernel

theorem test_witness_StepKeepsOutputs : PinsOk (calling .asserting) ∧ step (calling .asserting) = .next (idle (calling .asserting)) := by
  refine ⟨⟨⟨rfl, rfl⟩, rfl, ⟨rfl, rfl, rfl, rfl⟩, rfl, rfl⟩, rfl⟩

theorem test_witness_StepKeepsHoldQueue : HoldOk (withHeld [held .inFlight 60] (standIn .returning)) := by
  refine ⟨?_, ?_, ?_, ?_, ?_, ?_, ?_⟩ <;> decide +kernel

/-- Every counter of the fixture is 0. -/
theorem counters_zero (c : Counter) : attended.counters.get c = 0 := zeroCounters_get c

theorem test_witness_StepKeepsQueues : QueuesOk (run (.handOver 3 [0]) attended) := by
  refine ⟨?_, ?_, ?_, ?_, ?_, ?_, fun c => ?_, fun x hx build entry ho => ?_⟩
  · decide +kernel
  · decide +kernel
  · decide +kernel
  · decide +kernel
  · decide +kernel
  · decide +kernel
  · rw [show (run (.handOver 3 [0]) attended).counters = attended.counters by decide +kernel, counters_zero]
    exact Nat.zero_le _
  · have h : ∀ x ∈ (run (.handOver 3 [0]) attended).port.txQueue,
        x.owner = .listItem 1 1 ∨ x.owner = .listItem 1 2 := by decide +kernel
    have hb : (run (.handOver 3 [0]) attended).responder.build = 1 := by decide +kernel
    rw [hb]
    rcases h x hx with h | h <;> rw [ho] at h <;> injection h <;> omega

theorem test_witness_StepKeepsTables : TablesOk (withRules [ruleOf .echo] attended) := by
  refine ⟨?_, ?_, ?_, ?_, ?_⟩ <;> decide +kernel

theorem test_witness_StepKeepsWakeRecord : WakeOk standing.wake := by
  refine ⟨?_, ?_, ?_, ?_, ?_⟩ <;> decide +kernel

theorem test_witness_StepKeepsSessions : SessionsOk probing := by
  intro x hx
  have : x = sessionP := by
    simp [probing] at hx
    exact hx
  subst this
  refine ⟨?_, ?_, ?_⟩ <;> decide +kernel

theorem test_witness_StepAccounts : farFromEnd attended ∧ step attended = .next (idle attended) := by
  refine ⟨⟨fun c => ?_, ?_⟩, rfl⟩
  · rw [counters_zero]; decide
  · decide +kernel

/-- A state whose notice queue is full, with a lost count. -/
def crowded (lost : Nat) : State :=
  { attended with
    host := { attended.host with notices := List.replicate 16 (.linkChanged 0 0 true .linkUp), lost := lost } }

theorem test_witness_NoticeQueuedOrLost :
    attended.host.notices.length < 16
      ∧ ∀ n ∈ [0, 65534, 65535], 16 ≤ (crowded n).host.notices.length ∧ (crowded n).host.lost ≤ 65535 := by
  decide +kernel

theorem test_witness_ReturnEndsWhenDrained :
    (standIn .returning).controller.standIn = .returning ∧ (standIn .returning).hold.queue = []
      ∧ (standIn .returning).port.rxBuffer = [] ∧ (standIn .returning).classifier.current = none
      ∧ standing.controller.standIn ≠ .returning ∧ (withHeld [held .inFlight 9] (standIn .returning)).hold.queue ≠ []
      ∧ (received (standIn .returning)).port.rxBuffer ≠ []
      ∧ (classifying .rule plainFrame (standIn .returning)).classifier.current ≠ none := by decide +kernel

/-- An evidence slot's contents. -/
def evidenceA : Evidence := { cause := .rule, origin := none, time := 0, length := 0, bytes := [] }

/-- ARMING with evidence slots. -/
def slots (a b : Option Evidence) : State :=
  { standIn .arming with wake := { (standIn .arming).wake with slotA := a, slotB := b, lock := b.isSome } }

/-- STANDING at a high HOSTUP with a claim window or none. -/
def claiming (w : Option Timer) : State :=
  { standing with
    wake :=
      { standing.wake with
        hostupLine := true, hostupFiltered := true, claim := w, phase := if w.isSome then .claim else .none } }

theorem test_witness_CauseReportRecorded :
    attended.controller.standIn.serving = false ∧ (slots none none).controller.standIn.serving = true
      ∧ (slots none none).controller.standIn ≠ .standing ∧ causeEnabled quiet.wake .rule = false
      ∧ causeEnabled (slots none none).wake .rule = true ∧ causeEnabled (slots none none).wake .link = false
      ∧ (slots none none).wake.record.firstTime = none
      ∧ (reportCause { cause := .rule, origin := none, frame := none } (slots none none)).wake.record.firstTime = some 0
      ∧ (slots none none).wake.lock = false ∧ (slots none none).wake.slotA = none
      ∧ (slots (some evidenceA) none).wake.lock = false ∧ (slots (some evidenceA) none).wake.slotA ≠ none
      ∧ (slots (some evidenceA) none).wake.slotB = none ∧ (slots (some evidenceA) (some evidenceA)).wake.lock = true := by
  decide +kernel

/-- STANDING at a low HOSTUP, and at a high one without and with a claim window. -/
theorem test_witness_CauseReportRecorded_standing :
    (∀ s ∈ [standing, claiming none, claiming (some { start := 0, length := 20000 })],
        s.controller.standIn = .standing ∧ s.controller.standIn.serving = true ∧ causeEnabled s.wake .rule = true)
      ∧ standing.wake.hostupFiltered = false ∧ (claiming none).wake.hostupFiltered = true
      ∧ (claiming none).wake.claim = none ∧ (claiming (some { start := 0, length := 20000 })).wake.claim.isSome = true := by
  decide +kernel

theorem test_witness_HostupLineChange : true ≠ attended.wake.hostupLine ∧ false = attended.wake.hostupLine := by decide +kernel

theorem test_witness_HostupTaken :
    ∀ s ∈ [attended, standIn .arming, standing, calling .asserting, calling .gap, calling .claim, standIn .returning],
      ∀ high ∈ [true, false],
        (at' 20 (lineHeld high s)).wake.hostupLine = high ∧ (at' 20 (lineHeld high s)).wake.hostupFiltered = !high
          ∧ (at' 20 (lineHeld high s)).wake.hostupSince = some 0 ∧ 20 ≤ elapsed (at' 20 (lineHeld high s)).time 0
          ∧ (at' 20 (lineHeld high s)).controller.standIn = s.controller.standIn
          ∧ (at' 20 (lineHeld high s)).wake.phase = s.wake.phase := by decide +kernel

theorem test_witness_HcsFallChoosesFrame :
    attended.host.hcsLow = false ∧ (clocking emptyOut attended).host.hcsLow = true
      ∧ attended.host.inFlight = none ∧ attended.host.reply = none ∧ attended.host.notices = []
      ∧ State.reset.host.inFlight = none ∧ State.reset.host.reply = none ∧ State.reset.host.notices ≠ []
      ∧ (answered attended 1 [0]).host.inFlight = none ∧ (answered attended 1 [0]).host.reply ≠ none := by
  decide +kernel

def replyOut : FrameOut := { kind := .reply, tag := 1, outcome := .none, body := [0] }

theorem test_witness_HcsRiseReleasesFrame :
    ∀ f ∈ [replyOut, { replyOut with kind := .notice }],
      (clocking f attended).host.hcsLow = true ∧ (clocking f attended).host.unseen = false
        ∧ (clocking f attended).host.frameOut = some f ∧ at1 (zeros 9) 0 ≠ 0xA6 ∧ at1 (zeros 8) 0 ≠ 0xA6
        ∧ 8 + f.body.length ≤ (zeros 9).length ∧ (zeros 8).length < 8 + f.body.length := by decide +kernel

/-- A host frame of an unknown kind, and a NOP frame with its check spoiled. -/
theorem test_witness_JudgementTakesFirstCase :
    judgeFrame false [] = .none ∧ judgeFrame false [0] = .none ∧ judgeFrame false [0xA6, 1, 0, 0, 0] = .short
      ∧ judgeFrame false ((hostFrame 1 0 0 [7]).take 8) = .short
      ∧ judgeFrame false (hostFrame 1 0 0 [] ++ [5]) = .taken ∧ judgeFrame true (hostFrame 1 0 0 []) = .notTakenBusy
      ∧ judgeFrame false (hostFrame 0x17 0 0 []) = .unknownKind
      ∧ judgeFrame false [0xA6, 1, 0, 0, 0, 0, 0, 0] = .badCheck
      ∧ at2 [0xA6, 1, 0, 0, 0, 0, 0, 0] 4 = 0
      ∧ judgeFrame false ([0xA6, 1, 0, 0, 6, 0x41] ++ zeros 1603) = .badCheck
      ∧ judgeFrame false ([0xA6, 1, 0, 0, 6, 0x41] ++ zeros 1602) = .short := by decide +kernel

theorem test_witness_HcsRiseWithoutRequest :
    (clocking emptyOut attended).host.hcsLow = true ∧ (clocking emptyOut attended).host.unseen = false
      ∧ judgeFrame (busyAfter 2 (clocking emptyOut attended)) [0xA6, 1] = .short
      ∧ (run (.fullReset true false) attended).host.hcsLow = true
      ∧ (run (.fullReset true false) attended).host.unseen = true := by decide +kernel

theorem test_witness_HcsRiseRunsRequestSent :
    (clocking replyOut (answered attended 1 [0])).host.hcsLow = true
      ∧ (clocking replyOut (answered attended 1 [0])).host.unseen = false
      ∧ busyAfter (hostFrame (requestCode .nop) 2 0 [] ++ [0]).length (clocking replyOut (answered attended 1 [0])) = false := by
  decide +kernel

theorem test_witness_StationRecordsReadBack :
    1 ≤ [(0 : Byte)].length ∧ longBody.tail.length ≤ 1600 ∧ decodeRecord (StationIn.bytes (.rxFrame [7]) ++ [9]) = some (.rxFrame [7]) := by
  decide +kernel

theorem test_witness_BusyPortTakesNoRequest :
    isRequest (.nop 0 []) = true ∧ portBusy (answered attended 1 [0]) = true
      ∧ portBusy { attended with host := { attended.host with inFlight := some 1 } } = true
      ∧ portBusy (clocking { emptyOut with kind := .wait } attended) = true := by decide +kernel

theorem test_witness_port_free : PortFree attended ∧ PortFree standing ∧ PortFree State.reset := by
  refine ⟨?_, ?_, ?_⟩ <;> (unfold PortFree; decide +kernel)

theorem test_witness_RefusedRequestChangesNothing :
    isRequest (.nop 3 [0]) = true ∧ exec (.nop 3 [0]) attended = .next (run (.nop 3 [0]) attended)
      ∧ (run (.nop 3 [0]) attended).host.reply = some { tag := 3, body := [3] } ∧ (3 : Byte) ≠ 0 := by
  refine ⟨rfl, rfl, ?_, ?_⟩ <;> decide +kernel

theorem test_witness_EditsRefusedOutsideAttended :
    (∀ k ∈ [RequestKind.identityPut, .identityDrop, .rulePut, .ruleDrop, .templatePut, .templateDrop, .sessionPut,
          .sessionDrop, .policySet],
        isEdit (requestCommand k 1 []) = true ∧ editLengthOk k [] = false)
      ∧ isEdit (requestCommand .clearAll 1 []) = true ∧ editLengthOk .clearAll [0] = false
      ∧ editLengthOk .clearAll [] = true ∧ editLengthOk .policySet (zeros 12) = true
      ∧ editLengthOk .policySet (zeros 13) = false ∧ editLengthOk .identityPut (entryPut 3 entryIp) = true
      ∧ editLengthOk .identityDrop [9] = true ∧ standing.controller.standIn ≠ .attended := by decide +kernel

theorem test_witness_ReadsInPieces :
    (∀ n ∈ [0, 7, 8, 11, 12, 23, 24, 31, 32, 63, 64, 255], at1 [byte n] 0 = n) ∧ [byte 0].length = 1
      ∧ ([] : List Byte).length ≠ 1 := by decide +kernel

theorem test_witness_PiecesStayWithinTheBody :
    (3 : Nat) ≤ 1600 ∧ (pieces 1597 [(4, [1, 2]), (6, [1, 2])]).1.length = 1
      ∧ (pieces 1597 [(4, [1, 2]), (6, [1, 2])]).2 = some 6 := by decide +kernel

theorem test_witness_StatusReportsAndClears :
    [byte 2].length = 1 ∧ 2 ≤ at1 [byte 2] 0 ∧ ([0, 0] : List Byte).length ≠ 1 := by decide +kernel

/-- Policy bodies at the ends of the ranges. -/
theorem test_witness_PolicySetChecksAndReplaces :
    (∀ b ∈ ([[0, 0, 0, 0, 25, 1, 0, 2, 0, 10, 0, 1],
          [127, 127, 1, 1, 100, 60, 7, 120, 0x0E, 0x10, 0x03, 0xE8]] : List (List Byte)),
        b.length = 12 ∧ (policySetRecord b).isSome = true)
      ∧ policySetRecord [128, 0, 0, 0, 25, 1, 0, 2, 0, 10, 0, 1] = none
      ∧ policySetRecord [0, 0, 0, 0, 24, 1, 0, 2, 0, 10, 0, 1] = none
      ∧ policySetRecord [0, 0, 0, 0, 25, 1, 0, 2, 0, 9, 0, 1] = none
      ∧ policySetRecord [0, 0, 0, 0, 25, 1, 0, 2, 0, 10, 0, 0] = none
      ∧ standing.controller.standIn ≠ .attended ∧ attended.controller.standIn = .attended := by decide +kernel

theorem test_witness_IdentityEdits :
    identityPutLengthOk [] = false
      ∧ identityPutLengthOk (entryPut 3 entryIp) = true ∧ identityPutEntry 0 (entryPut 24 entryIp) = none
      ∧ (identityPutEntry 0 (entryPut 23 { entryIp with addr := ipP })).map (fun p => entryCheck entriesA p.1 p.2) = some none
      ∧ (identityPutEntry 0 (entryPut 3 entryIp)).map (fun p => entryCheck entriesA p.1 p.2) = some (some .duplicate)
      ∧ [byte 24].length = 1 ∧ 24 ≤ at1 [byte 24] 0 ∧ at1 [byte 23] 0 ≤ 23 ∧ ([] : List Byte).length ≠ 1
      ∧ lookup attended.responder.entries 2 = some entryGroup ∧ entryInUse attended 2 entryGroup = false
      ∧ lookup attended.responder.entries 0 = some entryLink ∧ entryInUse attended 0 entryLink = true
      ∧ lookup attended.responder.entries 23 = none := by decide +kernel

/-- A table with LINK entries of four VLANs. -/
def fourLinks : List (Option IdentityEntry) :=
  (List.range 4).map (fun v => some { entryLink with vlan := v, addr := [2, 0, 0, 0, 1, byte v] })
    ++ List.replicate 20 none

theorem test_witness_IdentityEdits_later_checks :
    (identityPutEntry 0 (entryPut 3 { entryIp with addr := ipP, link := 2 })).map (fun p => entryCheck entriesA p.1 p.2)
        = some (some .noEntry)
      ∧ (identityPutEntry 0 (entryPut 4 { entryLink with vlan := 4 })).map (fun p => entryCheck fourLinks p.1 p.2)
        = some (some .noRoom)
      ∧ (identityPutEntry 0 (entryPut 3 { entryLink with vlan := 3 })).map (fun p => entryCheck fourLinks p.1 p.2)
        = some none := by decide +kernel

theorem test_witness_RuleEdits :
    rulePutLengthOk (32 :: ruleBytes (ruleOf .wake)) = true
      ∧ rulePutRule (32 :: ruleBytes (ruleOf .wake)) = some (ruleOf .wake)
      ∧ at1 (0 :: ruleBytes (ruleOf .wake)) 0 ≤ attended.classifier.rules.length
      ∧ actionNamed attended.builder.templates (.template 0) = true
      ∧ rulePutRule (0 :: ruleBytes (ruleOf (.template 7))) = some (ruleOf (.template 7))
      ∧ actionNamed attended.builder.templates (.template 7) = false
      ∧ 32 ≤ (withRules (List.replicate 32 (ruleOf .wake)) attended).classifier.rules.length
      ∧ at1 [byte 31] 0 < (withRules (List.replicate 32 (ruleOf .wake)) attended).classifier.rules.length
      ∧ attended.classifier.rules.length ≤ at1 [byte 0] 0 := by decide +kernel

theorem test_witness_RuleEdits_refused :
    rulePutLengthOk [] = false ∧ rulePutLengthOk (0 :: ruleBytes { ruleOf .wake with limit := 0 }) = true
      ∧ rulePutRule (0 :: ruleBytes { ruleOf .wake with limit := 0 }) = none
      ∧ rulePutLengthOk (1 :: ruleBytes (ruleOf .wake)) = true
      ∧ rulePutRule (1 :: ruleBytes (ruleOf .wake)) = some (ruleOf .wake)
      ∧ attended.classifier.rules.length < at1 (1 :: ruleBytes (ruleOf .wake)) 0
      ∧ ([] : List Byte).length ≠ 1 ∧ 32 ≤ at1 [byte 32] 0 := by decide +kernel

theorem test_witness_TemplateEdits :
    templatePutLengthOk ([7, 0, 42, 0] ++ zeros 42) = true
      ∧ ((templatePutTemplate ([7, 0, 42, 0] ++ zeros 42)).map (fun p =>
          decide (p.2.bytes.length + storedBytes (attended.builder.templates.set p.1 none) ≤ 1536))) = some true
      ∧ ((templatePutTemplate ([7, 0, 42, 0] ++ zeros 42)).map (fun p =>
          decide (1536 < p.2.bytes.length
            + storedBytes ((List.replicate 8 (some { templateA with bytes := List.replicate 256 0 })).set p.1 none))))
          = some true
      ∧ lookup attended.builder.templates 0 = some templateA ∧ attended.classifier.rules = []
      ∧ (ruleOf (.template 0)) ∈ (withRules [ruleOf (.template 0)] attended).classifier.rules := by decide +kernel

theorem test_witness_TemplateEdits_refused :
    templatePutLengthOk [] = false ∧ templatePutLengthOk ([8, 0, 42, 0] ++ zeros 42) = true
      ∧ templatePutTemplate ([8, 0, 42, 0] ++ zeros 42) = none
      ∧ patchOf [1, 4, 0, 0, 0, 30, 0, 0] = some (.ipFromSource 30 4) ∧ patchOf [1, 0x14, 0, 0, 0, 30, 0, 0] = none
      ∧ patchOf [5, 0x14, 0, 0, 0, 14, 0, 0] = some (.transportChecksum 14 4 .tcp)
      ∧ patchOf [5, 0x24, 0, 0, 0, 14, 0, 0] = none
      ∧ ([] : List Byte).length ≠ 1 ∧ 8 ≤ at1 [byte 8] 0 ∧ lookup attended.builder.templates (at1 [byte 7] 0) = none := by
  decide +kernel

theorem test_witness_SessionEdits :
    sessionPutLengthOk (sessionPutBytes 0 sessionA) = true
      ∧ (sessionPutRecord 5 (sessionPutBytes 0 sessionA)).map (fun p => sessionCheck p.1 p.2 attended) = some none
      ∧ (sessionPutRecord 5 (sessionPutBytes 11 sessionA)).map (fun p => sessionCheck p.1 p.2 attended)
          = some (some .duplicate)
      ∧ lookup attended.keeper.sessions 0 = some sessionA ∧ lookup attended.keeper.sessions 11 = none := by decide +kernel

/-- The statuses of the checks of SESSION PUT; an address length of 5 and a reserved byte fail the check ahead of the
entry's. -/
theorem test_witness_SessionEdits_refused :
    sessionPutLengthOk [] = false ∧ sessionPutLengthOk (sessionPutBytes 12 sessionA) = true
      ∧ sessionPutRecord 5 (sessionPutBytes 12 sessionA) = none
      ∧ (sessionPutRecord 5 (sessionPutBytes 1 { sessionA with localIndex := 0 })).map (fun p => sessionCheck p.1 p.2 attended)
          = some (some .noEntry)
      ∧ (sessionPutRecord 5 (sessionPutBytes 1 { sessionA with localIndex := 23 })).map (fun p => sessionCheck p.1 p.2 attended)
          = some (some .noEntry)
      ∧ (sessionPutRecord 5 (sessionPutBytes 1 { sessionA with remoteAddr := [0x20] ++ zeros 15 })).map
            (fun p => sessionCheck p.1 p.2 attended)
          = some (some .badField)
      ∧ sessionPutRecord 5 ((sessionPutBytes 1 { sessionA with localIndex := 23 }).set 3 1) = none
      ∧ sessionPutRecord 5 (sessionPutBytes 1 { sessionA with localIndex := 23, remoteAddr := zeros 5 }) = none
      ∧ ([] : List Byte).length ≠ 1 ∧ 12 ≤ at1 [byte 12] 0 := by decide +kernel

theorem test_witness_PutLayoutsReadBack :
    entryIp.addr.length = entryIp.kind.addrLength ∧ addrAdmissible entryIp.kind entryIp.addr = true
      ∧ entryIp.isAddress = true ∧ entryIp.lease = some { start := 0, seconds := 600 }
      ∧ entryLink.isAddress = false ∧ entryLink.lease = none ∧ entryLink.link = 0
      ∧ addrAdmissible entryLink.kind entryLink.addr = true ∧ entryLink.addr.length = entryLink.kind.addrLength
      ∧ sessionA.remoteAddr.length = 4 ∧ sessionA.nextHop.length = 6 ∧ isUnicastMac sessionA.nextHop = true
      ∧ sessionA.idleAge ≤ sessionA.interval ∧ sessionA.window < 65536
      ∧ policySetRecord (policyBytes defaultPolicy) = some defaultPolicy := by decide +kernel

/-- A rule with every field present. -/
def fullRule : Rule :=
  { ruleOf .hold with
    fields :=
      { vlan := some 4094, etherType := some 0x0800, ipVersion := some 4, ipProto := some 6,
        source := some { addr := ipP, bits := 24 }, destIndex := some 23, ports := some (1, 65535),
        tcpFlags := some (2, 2), pattern := some { offset := 255, bytes := [1], mask := [1] } } }

theorem test_witness_RuleLayoutReadsBack :
    matchFieldsOk fullRule.fields = true ∧ 1 ≤ fullRule.limit ∧ fullRule.action.templateIndex ≤ 7
      ∧ matchFieldsOk (ruleOf .echo).fields = true
      ∧ rulePutRule (0 :: ruleBytes fullRule) = some fullRule := by decide +kernel

/-- The entries of a state as a HAND OVER taken in it starts them. -/
def handed (s : State) : List (Option IdentityEntry) :=
  mapTable s.responder.entries (fun e => e.handOver s.time s.wake.policy.leaseMargin)

/-- ATTENDED with an address that is answered but not defended: there is nothing to announce. -/
def silent : State :=
  { attended with
    responder :=
      { attended.responder with
        entries := [some entryLink, some { entryIp with defend := false }] ++ List.replicate 22 none } }

theorem test_witness_HandOverStartsStandIn :
    depthOf (at1 [byte 0] 0) = some .light ∧ depthOf (at1 [byte 1] 0) = some .deep ∧ depthOf (at1 [byte 2] 0) = none
      ∧ handOverCheck attended = none ∧ handOverCheck State.reset = some .incomplete ∧ attended.port.linkUp = true
      ∧ announcementList (handed attended) ≠ [] ∧ handOverCheck (down attended) = none
      ∧ (down attended).port.linkUp = false ∧ handOverCheck silent = none ∧ silent.port.linkUp = true
      ∧ announcementList (handed silent) = [] ∧ silent.port.txQueue = [] := by decide +kernel

/-- The runtime of the entries and the sessions: a margin point reached, a deadline passed, a session due and one not. -/
theorem test_witness_HandOverStartsStandIn_tables :
    ((lookup (handed attended) 1).map (fun e => e.leaseMark) = some false)
      ∧ ((lookup (handed (at' 300000 attended)) 1).map (fun e => (e.leaseMark, e.state)) = some (true, .active))
      ∧ ((lookup (handed (at' 600000 attended)) 1).map (fun e => e.state) = some .expired)
      ∧ handOverCheck (at' 300000 attended) = none
      ∧ (handOverCheck { at' 600000 attended with responder :=
          { attended.responder with entries := entriesA.set 3 (some { entryIp with addr := ipP, lease := none }) } }) = none
      ∧ lookup attended.keeper.sessions 0 = some sessionA ∧ sessionA.idleAge < sessionA.interval
      ∧ ({ sessionA with idleAge := 600 }).idleAge = ({ sessionA with idleAge := 600 }).interval := by decide +kernel

/-- The list and the notices of a HAND OVER: with room, with one free slot, with none, and with the link DOWN; a cause
enabled at the taking; a frame carried past a cut return. -/
theorem test_witness_HandOverStartsStandIn_list :
    announcementList (handed attended) = [1, 2]
      ∧ listItemsOf 1 (run (.handOver 3 [0]) attended).port.txQueue = [1, 2]
      ∧ listItemsOf 1 (run (.handOver 3 [0]) (withSlots 7 attended)).port.txQueue = [1]
      ∧ (run (.handOver 3 [0]) (withSlots 7 attended)).responder.list = [2]
      ∧ (run (.handOver 3 [0]) (withSlots 8 attended)).responder.list = [1, 2]
      ∧ (run (.handOver 3 [0]) (down attended)).responder.list = [1, 2]
      ∧ (run (.handOver 3 [0]) (down (at' 300000 attended))).host.notices
          = [.stateChanged 0 300000 .attended .arming .handedOver, .stateChanged 0 300000 .arming .standing .handedOver,
              .stateChanged 0 300000 .standing .calling .called]
      ∧ (classifying .rule plainFrame attended).classifier.current ≠ none
      ∧ handOverCheck (classifying .rule plainFrame attended) = none := by decide +kernel

/-- The state changes at the entry to RETURNING, with a frame held and without. -/
theorem test_witness_returnChanges :
    (run (.takeBack 3 []) standing).host.notices
        = [.stateChanged 0 0 .standing .returning .takenBack, .stateChanged 0 0 .returning .attended .drained]
      ∧ (run (.takeBack 3 []) (withHeld [held .waiting 60] standing)).host.notices
        = [.stateChanged 0 0 .standing .returning .takenBack]
      ∧ (run .claimWindowExpiry (at' 20000 (calling .claim))).host
        = afterChanges (returnChanges .selfReturn (calling .claim)) (at' 20000 (calling .claim)) := by decide +kernel

theorem test_witness_TakeBackReturnsPresence :
    standing.controller.standIn = .standing ∧ (calling .claim).controller.standIn = .calling
      ∧ attended.controller.standIn ≠ .standing ∧ attended.controller.standIn ≠ .calling
      ∧ (withHeld [held .waiting 9] standing).hold.queue ≠ [] ∧ portBusy (calling .claim) = false := by decide +kernel

theorem test_witness_ReceiveBufferTakesOrRefuses :
    attended.port.rxBuffer.length ≤ 5
      ∧ ({ attended.port with rxBuffer := List.replicate 5 plainFrame }).rxBuffer.length ≤ 5
      ∧ ({ attended.port with rxBuffer := List.replicate 6 plainFrame }).rxBuffer.length = 6
      ∧ 1 ≤ plainFrame.length ∧ plainFrame.length ≤ 1600 ∧ decodeRecord [0x5C] = none := by decide +kernel

/-- A stand-in whose session's probe waits in the transmit queue. -/
def queuedProbe : State :=
  { standing with
    keeper :=
      { sessions := some { sessionP with phase := .queued, deadline := none } :: List.replicate 11 none, nextProbe := 5 }
    port := { standing.port with txQueue := [{ kind := .probe, owner := .probe 0 4, frame := [] }] } }

theorem test_witness_SettlementFreesOldestSlot :
    standing.port.txQueue = [] ∧ queuedProbe.port.txQueue = [{ kind := .probe, owner := .probe 0 4, frame := [] }]
      ∧ standing.controller.standIn.serving = true ∧ (withSlots 1 attended).controller.standIn.serving = false
      ∧ (withSlots 1 (down standing)).port.linkUp = false
      ∧ queuedProbe.port.turn = .responder ∧ ({ queuedProbe.port with turn := .keeper }).turn = .keeper
      ∧ (lookup queuedProbe.keeper.sessions 0).map (fun x => (x.state, x.phase, x.probeId, x.firstProbe))
          = some (.probing, .queued, 4, 0)
      ∧ ¬ (sessionP.phase = .queued) ∧ sessionR.state ≠ .probing := by decide +kernel

/-- ARMING with two items unsettled, and with one. -/
theorem test_witness_SettlementFreesOldestSlot_arming :
    (∀ s ∈ [run (.handOver 3 [0]) attended, run .txDone (run (.handOver 3 [0]) attended)],
        s.controller.standIn = .arming ∧ s.host.inFlight = some 3
          ∧ (s.port.txQueue.head?.map (fun x => x.owner == .listItem s.responder.build 1)
              = some (decide (1 < unsettled s))))
      ∧ 1 < unsettled (run (.handOver 3 [0]) attended)
      ∧ unsettled (run .txDone (run (.handOver 3 [0]) attended)) = 1 := by decide +kernel

/-- RETURNING with forgotten deliveries and one record that waits. -/
def forgetting (n : Nat) : State :=
  { standIn .returning with hold := { queue := [held .waiting 9], level := .below, forgotten := n } }

theorem test_witness_DeliverDoneAnswersOldest :
    standing.controller.standIn ≠ .returning
      ∧ 0 < ({ standing.hold with forgotten := 4 }).forgotten ∧ standing.hold.forgotten = 0
      ∧ inFlightCount standing.hold.queue = 0
      ∧ 0 < (forgetting 1).hold.forgotten ∧ (forgetting 1).hold.queue ≠ [] ∧ (forgetting 0).hold.queue ≠ []
      ∧ inFlightCount (forgetting 0).hold.queue = 0 ∧ (forgetting 1).controller.standIn = .returning
      ∧ (withHeld [held .inFlight 9, held .waiting 8] (standIn .returning)).hold.queue = held .inFlight 9 :: [held .waiting 8]
      ∧ (withHeld [held .inFlight 9] (standIn .returning)).hold.queue = [held .inFlight 9]
      ∧ (standIn .returning).controller.standIn = .returning ∧ (held .inFlight 9).delivery = .inFlight
      ∧ (held .waiting 9).delivery = .waiting ∧ (standIn .returning).port.linkUp = true
      ∧ (down (standIn .returning)).port.linkUp = false := by decide +kernel

theorem test_witness_LinkRecordsChangeLink :
    attended.port.linkUp = true ∧ (down attended).port.linkUp = false
      ∧ (down attended).controller.standIn = .attended ∧ (standIn .returning).port.linkUp = true
      ∧ (down (standIn .returning)).port.linkUp = false ∧ (down (standIn .returning)).controller.standIn = .returning
      ∧ standing.port.linkUp = true ∧ causeEnabled standing.wake .link = false
      ∧ (run (.handOver 3 [0]) attended).controller.standIn = .arming
      ∧ (run (.handOver 3 [0]) attended).host.inFlight = some 3
      ∧ (down standing).controller.standIn = .standing ∧ (down (calling .gap)).controller.standIn = .calling := by
  decide +kernel

theorem test_witness_PortResetEmptiesPort :
    (∀ st ∈ [StandIn.attended, .standing, .calling, .returning],
        (standIn st).port.linkUp = true ∧ (down (standIn st)).port.linkUp = false
          ∧ (standIn st).controller.standIn = st)
      ∧ (standIn .returning).hold.queue = [] ∧ (standIn .returning).classifier.current = none
      ∧ (withHeld [held .inFlight 9] (standIn .returning)).hold.queue ≠ []
      ∧ (classifying .rule plainFrame (standIn .returning)).classifier.current ≠ none
      ∧ causeEnabled standing.wake .link = false
      ∧ (run (.handOver 3 [0]) attended).port.linkUp = true
      ∧ (run (.handOver 3 [0]) attended).controller.standIn = .arming
      ∧ (run (.handOver 3 [0]) attended).host.inFlight = some 3 := by decide +kernel

theorem test_witness_FrameTakenByState :
    ∀ st ∈ [StandIn.attended, .arming, .standing, .calling, .returning],
      (received (standIn st)).classifier.current = none ∧ (received (standIn st)).port.rxBuffer = [plainFrame]
        ∧ (received (standIn st)).controller.standIn = st
        ∧ fits (received (standIn st)).hold.queue plainFrame.length = true
        ∧ fits (withHeld (List.replicate 64 (held .waiting 9)) (received (standIn st))).hold.queue plainFrame.length = false := by
  decide +kernel

theorem test_witness_FiltersPassOrDiscard :
    lengthOk plainFrame = true ∧ lengthOk (zeros 13) = false
      ∧ (linkOfVlan (entriesRead standing) (frameVlan plainFrame)).isSome = true
      ∧ (linkOfVlan (entriesRead standing) 7).isSome = false
      ∧ destinationAdmitted (entriesRead standing) plainFrame = true
      ∧ destinationAdmitted (entriesRead standing) (ethernet macP mac0 [] 0x88B5 (zeros 46)) = false
      ∧ (classifying .length plainFrame standing).classifier.current
          = some { frame := plainFrame, step := .length, reached4 := false, superseded := noneSuperseded } := by
  decide +kernel

/-- A stand-in with a segment of the session's at step 4. -/
def withSegment (seq ack : Nat) (flags : Byte) (data : List Byte) : State :=
  classifying .session (segment seq ack flags data) standing

/-- The session become RETURNED, READY before. -/
def sessionT : Session := { sessionR with state := .returned, atReturn := some .ready, nextDue := none }

/-- A stand-in with 64 records held, kept or not, under an overflow policy. -/
def full (kept : Bool) (o : HoldOverflow) : State :=
  { withHeld (List.replicate 64 { held .waiting 9 with kept := kept }) standing with
    wake := { standing.wake with policy := { defaultPolicy with overflow := o } } }

/-- A stand-in whose level flag the next 32 bytes raise: the high mark is 8192 bytes. -/
def rising : State :=
  { withHeld (List.replicate 6 (held .waiting 1360)) standing with
    wake := { standing.wake with policy := { defaultPolicy with highMark := 25 } } }

theorem test_witness_SessionDispatchSettlesSegments :
    sessionMatch (entriesRead standing) (sessionsRead standing) (fun x => x.state.live) plainFrame = none
      ∧ sessionMatch entriesA (sessionsRead standing) Session.liveAtReturn plainFrame = none
      ∧ (∀ x ∈ [sessionR, sessionP, { sessionR with state := .heardData, nextDue := none }],
          sessionMatch entriesA [some x] (fun x => x.state.live) (segment 0x91C20400 0x3A6B0010 0x10 []) = some (0, x)
            ∧ segmentKind x x.state (segment 0x91C20400 0x3A6B0010 0x10 []) = .peerAck
            ∧ segmentKind x x.state (segment 0x91C203FF 0x3A6B0010 0x10 [1]) = .peerProbe
            ∧ segmentKind x x.state (segment 0x91C20400 0x3A6B0010 0x18 [1, 2]) = .data
            ∧ segmentKind x x.state (segment 0x91C20400 0x3A6B0010 0x11 []) = .close
            ∧ segmentKind x x.state (segment 0x91C20400 0x3A6B0010 0x04 []) = .reset
            ∧ segmentKind x x.state (segment 0x91C20400 0x3A6B0010 0x02 []) = .outOfWindow)
      ∧ nothingSuperseded (withSegment 0 0 0 []) ∧ standing.controller.standIn.serving = true
      ∧ standing.port.txQueue.length < 8 ∧ 8 ≤ (withSlots 8 standing).port.txQueue.length := by
  unfold nothingSuperseded; decide +kernel

/-- A segment carried over past the entry to RETURNING, in RETURNING and in ATTENDED. -/
theorem test_witness_SessionDispatchSettlesSegments_carried :
    sessionMatch entriesA [some sessionT] Session.liveAtReturn (segment 0x91C20400 0x3A6B0010 0x10 []) = some (0, sessionT)
      ∧ sessionT.atReturn = some .ready ∧ segmentKind sessionT .ready (segment 0x91C203FF 0x3A6B0010 0x10 [1]) = .peerProbe
      ∧ (standIn .returning).controller.standIn = .returning ∧ attended.controller.standIn = .attended
      ∧ fits (standIn .returning).hold.queue 60 = true
      ∧ fits (withHeld (List.replicate 64 (held .waiting 9)) (standIn .returning)).hold.queue 60 = false := by
  decide +kernel

/-- A frame marked by R111 in a new stand-in, with the RETURNED record dropped since (assumption 25): held, its level rise
reported, no cause of its own. -/
theorem test_marked_frame_in_a_new_stand_in :
    let s : State :=
      { rising with
        keeper := { rising.keeper with sessions := List.replicate 12 none }
        classifier :=
          { rising.classifier with
            current :=
              some
                { frame := segment 0x91C20400 0x3A6B0010 0x18 [1, 2], step := .session, reached4 := true,
                  superseded := { noneSuperseded with sessions := [(0, some sessionT)] } } } }
    (run .sessionDispatch s).counters.held = 1 ∧ (run .sessionDispatch s).wake.record.noted.has .holdHigh = true
      ∧ (run .sessionDispatch s).wake.record.noted.has .sessionData = false
      ∧ (run .sessionDispatch s).keeper = s.keeper := by decide +kernel

/-- The answers of the hold buffer: room, room by displacement, none, and a level that rises. -/
theorem test_witness_SettledByHold :
    HoldAccepted standing 60 0 ∧ HoldAccepted (full false .dropOldest) 60 1 ∧ HoldRefused (full true .dropOldest) 60
      ∧ HoldRefused (full false .dropNewest) 60 ∧ standing.hold.level = .below
      ∧ (holding standing plainFrame .byDefault false 0).level = .below
      ∧ (holding rising plainFrame .byDefault false 0).level = .above ∧ rising.hold.level = .below
      ∧ HoldAccepted rising plainFrame.length 0 := by
  unfold HoldAccepted HoldRefused
  refine ⟨?_, ?_, ?_, ?_, ?_, ?_, ?_, ?_, ?_⟩ <;> decide +kernel

def ip6A : Addr := [0xFE, 0x80] ++ zeros 13 ++ [0x41]

def ip6P : Addr := [0xFE, 0x80] ++ zeros 13 ++ [9]

def entry6 : IdentityEntry := freshEntry .ipv6 0 ip6A 0 true true none

/-- The entries with an IPv6 address at index 3. -/
def entries6 : List (Option IdentityEntry) := entriesA.set 3 (some entry6)

/-- A neighbour solicitation for an address. -/
def solicitation (target : Addr) : List Byte :=
  ethernet (solicitedMac target) macP [] 0x86DD
    (ip6Header 58 255 ip6P allNodes 24 ++ icmp6Message ip6P allNodes ([135, 0, 0, 0, 0, 0, 0, 0] ++ target))

theorem test_witness_ResponderDispatchAnswers :
    responderKind plainFrame = none ∧ responderKind (arpFrame 1 ipP ipA) = some .arp
      ∧ arpOk (layerData (arpFrame 1 ipP ipA)) = true ∧ arpConflict entriesA (arpFrame 1 ipP ipA) = none
      ∧ arpTarget entriesA (arpFrame 1 ipP ipA) = some (1, entryIp)
      ∧ arpOk (layerData ((arpFrame 1 ipP ipA).set 14 9)) = false
      ∧ responderKind ((arpFrame 1 ipP ipA).set 14 9) = some .arp ∧ arpTarget entriesA (arpFrame 1 ipP ipP) = none
      ∧ entryIp.budget < standing.wake.policy.answerLimit ∧ standing.port.txQueue.length < 8
      ∧ 8 ≤ (withSlots 8 standing).port.txQueue.length
      ∧ standing.wake.policy.answerLimit ≤ ({ entryIp with budget := 20 }).budget
      ∧ entryIp.answers ≠ BitVec.allOnes 32 := by decide +kernel

theorem test_witness_ResponderDispatchAnswers_neighbours :
    responderKind (solicitation ip6A) = some .solicitation ∧ (readIp (solicitation ip6A)).map neighbourOk = some true
      ∧ (readIp (solicitation ip6A)).map (solicitedEntry entries6 (solicitation ip6A)) = some (some (3, entry6))
      ∧ (readIp (solicitation ip6P)).map (solicitedEntry entries6 (solicitation ip6P)) = some none
      ∧ (readIp ((solicitation ip6A).set 60 1)).map neighbourOk = some false
      ∧ responderKind (unsolicited macP 0 ip6P) = some .advertisement
      ∧ (readIp (unsolicited macP 0 ip6P)).map (fun ip => (neighbourOk ip, advertConflict entries6 (unsolicited macP 0 ip6P) ip))
          = some (true, none)
      ∧ (readIp ((unsolicited macP 0 ip6P).set 60 1)).map neighbourOk = some false := by decide +kernel

theorem test_witness_ConflictsDefendedOrCeded :
    responderKind (arpFrame 2 ipA ipA) = some .arp ∧ arpOk (layerData (arpFrame 2 ipA ipA)) = true
      ∧ arpConflict entriesA (arpFrame 2 ipA ipA) = some (1, entryIp) ∧ entryIp.defend = true
      ∧ responderKind (unsolicited macP 0 ip6A) = some .advertisement
      ∧ (readIp (unsolicited macP 0 ip6A)).map (fun ip => (neighbourOk ip, advertConflict entries6 (unsolicited macP 0 ip6A) ip))
          = some (true, some (3, entry6))
      ∧ entryIp.lastDefence = none ∧ entryIp.defence = false ∧ (down standing).port.linkUp = false
      ∧ standing.port.txQueue.length < 8 ∧ 8 ≤ (withSlots 8 standing).port.txQueue.length
      ∧ 10000 ≤ elapsed 10000 0 ∧ elapsed 9999 0 < 10000 ∧ ({ entryIp with defend := false }).defend = false
      ∧ some sessionR ∈ standing.keeper.sessions ∧ sessionR.localIndex = 1 ∧ sessionR.state.live = true := by
  decide +kernel

/-- A frame carried over past the entry to RETURNING: its answer and its defence are dropped, and the return ends. -/
theorem test_witness_carried :
    (∀ s ∈ [standIn .returning, attended],
        s.controller.standIn.serving = false
          ∧ (run .responderDispatch (classifying .responder (arpFrame 1 ipP ipA) s)).counters.droppedAnswer = 1
          ∧ (run .responderDispatch (classifying .responder (arpFrame 2 ipA ipA) s)).counters.droppedAnnounce = 1
          ∧ (run .responderDispatch (classifying .responder (arpFrame 2 ipA ipA) (down s))).counters.droppedAnnounce = 0
          ∧ (run .responderDispatch (classifying .responder (queryFrame groupA) s)).responder = s.responder
          ∧ (run .ruleMatch (classifying .rule echoFrame (withRules [ruleOf .echo] s))).counters.droppedAnswer = 1)
      ∧ (run .ruleMatch (classifying .rule plainFrame (withRules [ruleOf .hold] (standIn .returning)))).counters.held = 1
      ∧ (run .ruleMatch (classifying .rule plainFrame (withRules [ruleOf .hold] attended))).counters.holdRefused = 1
      ∧ (run .ruleMatch (classifying .rule plainFrame (withRules [ruleOf .wake] (standIn .returning)))).wake
          = (standIn .returning).wake
      ∧ (run .ruleMatch
          (classifying .rule plainFrame (withRules [ruleOf .wake] (standIn .returning)))).controller.standIn = .attended := by
  decide +kernel

/-- ARMING with items on the announcement list, a HAND OVER in flight and an entry that may not defend. -/
def armingWith (l : List Nat) : State :=
  { standIn .arming with
    responder :=
      { (standIn .arming).responder with
        entries := entriesA.set 1 (some { entryIp with lastDefence := some 0 }), list := l }
    host := { (standIn .arming).host with inFlight := some 3 } }

/-- The item of an entry that leaves ACTIVE is the last unsettled one, or another is left (R40). -/
theorem test_witness_ArmingAfterRemoval :
    (∀ c ∈ [Instr.responderDispatch, .leaseDeadline 1], ∀ l ∈ [[1], [1, 2]],
        let s := at' (if c = .responderDispatch then 0 else 600000)
          (classifying .responder (arpFrame 2 ipA ipA) (armingWith l))
        s.controller.standIn = .arming ∧ s.host.inFlight = some 3
          ∧ unsettled (run c s) = l.length - 1
          ∧ ((run c s).controller.standIn = .arming ↔ l = [1, 2])) := by decide +kernel

/-- A stand-in whose frame in classification reads an entry that has been dropped since its taking. -/
def edited : State :=
  { standing with
    responder := { standing.responder with entries := entriesA.set 2 none }
    classifier :=
      { standing.classifier with
        current :=
          some
            { frame := queryFrame groupA, step := .responder, reached4 := false,
              superseded := { noneSuperseded with entries := [(2, some entryGroup)] } } } }

theorem test_witness_QueriesScheduleReports :
    responderKind (queryFrame groupA) = some .igmpQuery ∧ (readIp (queryFrame groupA)).map igmpOk = some true
      ∧ (readIp ((queryFrame groupA).set 40 1)).map igmpOk = some false
      ∧ responderKind ((queryFrame groupA).set 40 1) = some .igmpQuery
      ∧ queriedEntries entriesA .group4 0 groupA 1000 = [(2, 500)]
      ∧ queriedEntries entriesA .group4 0 (zeros 4) 1000 = [(2, 500)]
      ∧ responderKind mldFrame = some .mldQuery ∧ (readIp mldFrame).map mldOk = some true
      ∧ entryGroup.report = none
      ∧ isSuperseded (superseded (classifying .responder mldFrame standing)).entries 2 = false
      ∧ isSuperseded (superseded edited).entries 2 = true ∧ (entriesRead edited).getD 2 none = some entryGroup := by
  decide +kernel

/-- The deadline 500 of a query beside one that lies later, as late, and due (R44). -/
theorem test_witness_QueriesScheduleReports_earlier :
    (500 < 501 - elapsed 0 0) ∧ (500 - elapsed 0 0 ≤ 500)
      ∧ ∀ r ∈ [({ start := 0, length := 501, form := .extended, due := false } : PendingReport),
          { start := 0, length := 500, form := .extended, due := false },
          { start := 0, length := 501, form := .extended, due := true }],
        ((run .responderDispatch
            (classifying .responder (queryFrame groupA)
              { standing with
                responder :=
                  { standing.responder with
                    entries := entriesA.set 2 (some { entryGroup with report := some r }) } })).responder.entries.getD 2
          none).map (fun e => e.report)
          = some (some (if r.length = 501 ∧ r.due = false then { start := 0, length := 500, form := .short, due := false }
              else r)) := by decide +kernel

/-- A rule at its limit. -/
def overRule (o : OverflowAction) : Rule := { ruleOf .wake with hits := 1, overflow := o }

theorem test_witness_RulesAndDefaultSettleFrames :
    firstMatch entriesA (rulesRead standing) plainFrame = none
      ∧ firstMatch entriesA (rulesRead (withRules [ruleOf .wake] standing)) plainFrame
          = some ((ruleOf .wake, some 0), 0)
      ∧ (ruleOf .wake).hits < (ruleOf .wake).limit
      ∧ (∀ o ∈ [OverflowAction.discard, .wake, .hold],
          firstMatch entriesA (rulesRead (withRules [overRule o] standing)) plainFrame = some ((overRule o, some 0), 0)
            ∧ (overRule o).limit ≤ (overRule o).hits ∧ (overRule o).overflow = o)
      ∧ standing.wake.policy.defaultAction = .discard
      ∧ ({ standing.wake.policy with defaultAction := .hold }).defaultAction = .hold
      ∧ superseded (classifying .rule plainFrame standing) = noneSuperseded := by decide +kernel

theorem test_witness_RuleActionsHoldAndAnswer :
    (∀ a ∈ [RuleAction.hold, .holdWake, .echo, .template 0, .template 1],
        firstMatch entriesA (rulesRead (withRules [ruleOf a] standing)) plainFrame = some ((ruleOf a, some 0), 0)
          ∧ (ruleOf a).hits < (ruleOf a).limit)
      ∧ firstMatch entriesA (rulesRead (withRules [ruleOf .echo] standing)) echoFrame = some ((ruleOf .echo, some 0), 0)
      ∧ (echoFields entriesA echoFrame).isSome = true ∧ echoFields entriesA plainFrame = none
      ∧ lookup standing.builder.templates 0 = some templateA ∧ lookup standing.builder.templates 1 = some templateB
      ∧ (buildTemplate templateA plainFrame mac0).isSome = true ∧ buildTemplate templateB plainFrame mac0 = none
      ∧ frameLinkMac entriesA plainFrame = mac0 := by
  decide +kernel

theorem test_witness_PeriodsAndLeases :
    (∀ cls ∈ [PeriodClass.p0, .p1, .p2, .p3],
        periodLength cls ≤ elapsed (at' (periodLength cls) standing).time (standing.classifier.periods.get cls))
      ∧ lookup standing.responder.entries 1 = some entryIp ∧ entryIp.isAddress = true ∧ entryIp.leaseMark = false
      ∧ entryIp.marginReached 300000 standing.wake.policy.leaseMargin = true
      ∧ entryIp.marginReached 299999 standing.wake.policy.leaseMargin = false
      ∧ entryIp.state ≠ .expired ∧ entryIp.deadlinePassed 600000 = true ∧ entryIp.deadlinePassed 599999 = false
      ∧ entryIp.state = .active := by decide +kernel

/-- The lease deadline of an ACTIVE entry with a session and an item, and of a CEDED one. -/
theorem test_witness_PeriodsAndLeases_deadline :
    some sessionR ∈ standing.keeper.sessions ∧ sessionR.localIndex = 1 ∧ sessionR.state.live = true
      ∧ (∀ x ∈ probing.keeper.sessions, x.all (fun x => x.localIndex != 2) = true)
      ∧ ({ entryIp with state := .ceded }).state ≠ .expired
      ∧ ({ entryIp with state := .ceded }).deadlinePassed 600000 = true
      ∧ ((run (.leaseDeadline 1) (at' 600000 quiet)).keeper.sessions.getD 0 none).map (fun x => x.state) = some .lost
      ∧ (run (.leaseDeadline 1) (at' 600000 quiet)).wake.record.noted.has .sessionLost = true := by decide +kernel

theorem test_witness_ReportsAndProbes :
    (lookup (reporting standing).responder.entries 2).map (fun e => e.report.map (fun r => (r.reached 500, r.reached 499)))
        = some (some (true, false))
      ∧ lookup standing.keeper.sessions 0 = some sessionR ∧ sessionR.dueReached 600000 = true
      ∧ sessionR.dueReached 599999 = false ∧ lookup probing.keeper.sessions 0 = some sessionP
      ∧ sessionP.probeTimerReached 5000 = true ∧ sessionP.probeTimerReached 4999 = false
      ∧ sessionP.outstanding < sessionP.limit ∧ ({ sessionP with outstanding := 3 }).limit ≤ 3
      ∧ 8 ≤ (withSlots 8 standing).port.txQueue.length := by decide +kernel

theorem test_witness_CallingSequenceTimers :
    (10000 ≤ elapsed (at' 10000 (calling .asserting)).time 0
        ∧ (calling .asserting).wake.response = some { start := 0, length := 10000 })
      ∧ (1000 ≤ elapsed (at' 1000 (calling .gap)).time 0 ∧ (calling .gap).wake.gap = some { start := 0, length := 1000 })
      ∧ (calling .gap).wake.record.attempts ≤ (calling .gap).wake.policy.retries
      ∧ (calling .gap).wake.policy.retries < ({ (calling .gap).wake.record with attempts := 4 }).attempts
      ∧ (20000 ≤ elapsed (at' 20000 (calling .claim)).time 0
          ∧ (calling .claim).wake.claim = some { start := 0, length := 20000 }) := by decide +kernel

end Sys2Proof.Tests
end

section
/-! PROOFS. The requests of the wake unit at a free port (R136, R137, R140): first how a taken request without a body is
judged, answered and refused, then one lemma per request. -/

namespace Sys2Proof.Proofs

open Sys2Proof Sys2Proof.Machine

/-! A taken request: judged, answered, refused (R165, R168, R169). -/

/-- At a free port a request is carried out with its frame judged TAKEN (R165 case 6). -/
theorem hostRequest_of_portFree {s : State} (hfree : PortFree s) (run : State → State) :
    hostRequest run s = run (setPrevious .taken s) := by
  have hbusy : portBusy s = false := hfree
  simp [hostRequest, hbusy]

theorem okReply_taken (tag : Byte) (rest : List Byte) (s : State) :
    okReply tag rest (setPrevious .taken s) = answered s tag (0 :: rest) := rfl

theorem refuse_taken (tag : Byte) (status : Status) (s : State) :
    refuse tag status (setPrevious .taken s) = refused s tag status := rfl

@[simp] theorem emptyCheck_nil : emptyCheck [] = none := rfl

theorem emptyCheck_of_ne_nil {body : List Byte} (hbody : body ≠ []) : emptyCheck body = some .badLength := by
  simp [emptyCheck, hbody]

/-- A request that has to come without a body, and does, is carried out. -/
theorem hostRequest_judged_nil {s : State} (hfree : PortFree s) (tag : Byte) (carryOut : State → State) :
    hostRequest (judged tag (emptyCheck []) carryOut) s = carryOut (setPrevious .taken s) := by
  rw [hostRequest_of_portFree hfree, emptyCheck_nil, judged]

/-- A request that has to come without a body, and has one, is refused whatever it would do. -/
theorem hostRequest_judged_of_ne_nil {s : State} (hfree : PortFree s) (tag : Byte) {body : List Byte}
    (hbody : body ≠ []) (carryOut : State → State) :
    hostRequest (judged tag (emptyCheck body) carryOut) s = refused s tag .badLength := by
  rw [hostRequest_of_portFree hfree, emptyCheck_of_ne_nil hbody, judged, refuse_taken]

/-! The three requests of the wake unit. -/

theorem exec_evidenceRead (tag : Byte) (body : List Byte) (s : State) :
    exec (.evidenceRead tag body) s = .next (hostRequest (reqEvidenceRead tag body) s) := rfl

theorem exec_wakeRecord (tag : Byte) (body : List Byte) (s : State) :
    exec (.wakeRecord tag body) s = .next (hostRequest (reqWakeRecord tag body) s) := rfl

theorem exec_evidenceRelease (tag : Byte) (body : List Byte) (s : State) :
    exec (.evidenceRelease tag body) s = .next (hostRequest (reqEvidenceRelease tag body) s) := rfl

/-- EVIDENCE READ changes nothing but the port: lock, count and slots are in the reply (R136). -/
theorem hostRequest_evidenceRead {s : State} (hfree : PortFree s) (tag : Byte) :
    hostRequest (reqEvidenceRead tag []) s =
      answered s tag
        ([0, flagByte s.wake.lock, 0] ++ be16 s.wake.uncaptured ++ evidenceBytes s.wake.slotA
          ++ evidenceBytes s.wake.slotB) :=
  (hostRequest_judged_nil hfree tag _).trans (okReply_taken tag _ s)

/-- WAKE RECORD changes nothing but the port: the record, the call phase with its time left and the two levels are in
the reply (R140). -/
theorem hostRequest_wakeRecord {s : State} (hfree : PortFree s) (tag : Byte) :
    hostRequest (reqWakeRecord tag []) s =
      answered s tag
        (0 :: (wakeRecordBytes s.wake.record ++ [s.wake.phase.code] ++ timeLeft s.wake s.time
          ++ [flagByte s.wake.wakereq, flagByte s.wake.hostupFiltered])) :=
  (hostRequest_judged_nil hfree tag _).trans (okReply_taken tag _ s)

/-- The release and the answer touch different parts of the state. -/
theorem okReply_releaseEvidence_taken (tag : Byte) (rest : List Byte) (s : State) :
    okReply tag rest (releaseEvidence (setPrevious .taken s)) =
      { answered s tag (0 :: rest) with
        wake := { s.wake with slotA := none, slotB := none, lock := false, uncaptured := 0 } } := rfl

/-- EVIDENCE RELEASE empties the slots and clears the lock and the count; the reply counts what stood before (R137). -/
theorem hostRequest_evidenceRelease {s : State} (hfree : PortFree s) (tag : Byte) :
    hostRequest (reqEvidenceRelease tag []) s =
      { answered s tag
          ([0, byte (bit s.wake.slotA.isSome + bit s.wake.slotB.isSome)] ++ be16 s.wake.uncaptured) with
        wake := { s.wake with slotA := none, slotB := none, lock := false, uncaptured := 0 } } :=
  (hostRequest_judged_nil hfree tag _).trans (okReply_releaseEvidence_taken tag _ s)

/-- Settles O31: a taken request is judged by its body's length alone; with an empty body each request is carried out,
with any other each is refused. -/
theorem wakeUnitRequests : Obligations.WakeUnitRequests := by
  intro tag body s hfree
  rw [exec_evidenceRead, exec_wakeRecord, exec_evidenceRelease]
  constructor
  · rintro rfl
    rw [hostRequest_evidenceRead hfree, hostRequest_wakeRecord hfree, hostRequest_evidenceRelease hfree]
    exact ⟨rfl, rfl, rfl⟩
  · intro hbody
    have hrefused := hostRequest_judged_of_ne_nil hfree tag hbody
    exact ⟨congrArg _ (hrefused _), congrArg _ (hrefused _), congrArg _ (hrefused _)⟩

end Sys2Proof.Proofs
end

section
/-! PROOFS. POLICY SET, NOP and POLICY GET at a free port (R173 to R176): first how the checks that open every edit are
judged, then what a policy record in and out of its ranges brings, then the two requests without a body. -/

namespace Sys2Proof.Proofs

open Sys2Proof Sys2Proof.Machine

/-! An edit: its length, then the state (R5). -/

theorem editCheck_of_attended {s : State} (hattended : s.controller.standIn = .attended) : editCheck true s = none := by
  simp [editCheck, hattended]

theorem editCheck_of_not_attended {s : State} (hstate : s.controller.standIn ≠ .attended) :
    editCheck true s = some .wrongState := by
  simp [editCheck, hstate]

/-- An edit whose length is not the one its body declares is refused in every state. -/
theorem hostRequest_edit_badLength {s : State} (hfree : PortFree s) (tag : Byte) (carryOut : State → State) :
    hostRequest (fun u => judged tag (editCheck false u) carryOut u) s = refused s tag .badLength := by
  rw [hostRequest_of_portFree hfree]
  exact refuse_taken tag .badLength s

/-- An edit of the right length is refused outside ATTENDED. -/
theorem hostRequest_edit_wrongState {s : State} (hfree : PortFree s) (hstate : s.controller.standIn ≠ .attended)
    (tag : Byte) (carryOut : State → State) :
    hostRequest (fun u => judged tag (editCheck true u) carryOut u) s = refused s tag .wrongState := by
  have hstate' : (setPrevious .taken s).controller.standIn ≠ .attended := hstate
  rw [hostRequest_of_portFree hfree, editCheck_of_not_attended hstate', judged, refuse_taken]

/-- An edit of the right length is carried out in ATTENDED. -/
theorem hostRequest_edit_attended {s : State} (hfree : PortFree s) (hattended : s.controller.standIn = .attended)
    (tag : Byte) (carryOut : State → State) :
    hostRequest (fun u => judged tag (editCheck true u) carryOut u) s = carryOut (setPrevious .taken s) := by
  have hattended' : (setPrevious .taken s).controller.standIn = .attended := hattended
  rw [hostRequest_of_portFree hfree, editCheck_of_attended hattended', judged]

/-! The policy record of a POLICY SET body (R174). -/

/-- Every field of a POLICY SET body is within its range or among its named values (R174, check 3 of R175). -/
def PolicyInRange (body : List Byte) : Prop :=
  at1 body 0 < 128 ∧ at1 body 1 < 128 ∧ at1 body 2 ≤ 1 ∧ at1 body 3 ≤ 1 ∧ 25 ≤ at1 body 4 ∧ at1 body 4 ≤ 100
    ∧ 1 ≤ at1 body 5 ∧ at1 body 5 ≤ 60 ∧ at1 body 6 ≤ 7 ∧ 2 ≤ at1 body 7 ∧ at1 body 7 ≤ 120
    ∧ 10 ≤ at2 body 8 ∧ at2 body 8 ≤ 3600 ∧ 1 ≤ at2 body 10 ∧ at2 body 10 ≤ 1000

/-- The record that the bytes of a POLICY SET body spell, in range or not. -/
def policyOfBytes (body : List Byte) : Policy :=
  { light := body.getD 0 0, deep := body.getD 1 0,
    defaultAction := if at1 body 2 = 0 then .discard else .hold,
    overflow := if at1 body 3 = 0 then .dropNewest else .dropOldest,
    highMark := at1 body 4, wakeResponse := at1 body 5, retries := at1 body 6,
    claimWindow := at1 body 7, leaseMargin := at2 body 8, answerLimit := at2 body 10 }

theorem policySetRecord_of_inRange {body : List Byte} (hgood : PolicyInRange body) :
    policySetRecord body = some (policyOfBytes body) := if_pos hgood

theorem policySetRecord_of_not_inRange {body : List Byte} (hbad : ¬ PolicyInRange body) :
    policySetRecord body = none := if_neg hbad

/-! POLICY SET (R175). -/

theorem exec_policySet (tag : Byte) (body : List Byte) (s : State) :
    exec (.policySet tag body) s = .next (hostRequest (reqPolicySet tag body) s) := rfl

/-- What a POLICY SET that passes its length and the state goes on to do. -/
def policySetCarryOut (tag : Byte) (body : List Byte) (s : State) : State :=
  match policySetRecord body with
  | none => refuse tag .badField s
  | some p => okReply tag [] (writePolicy p s)

theorem policySetCarryOut_of_inRange {body : List Byte} (hgood : PolicyInRange body) (tag : Byte) (s : State) :
    policySetCarryOut tag body s = okReply tag [] (writePolicy (policyOfBytes body) s) := by
  rw [policySetCarryOut, policySetRecord_of_inRange hgood]

theorem policySetCarryOut_of_not_inRange {body : List Byte} (hbad : ¬ PolicyInRange body) (tag : Byte) (s : State) :
    policySetCarryOut tag body s = refuse tag .badField s := by
  rw [policySetCarryOut, policySetRecord_of_not_inRange hbad]

theorem reqPolicySet_eq (tag : Byte) (body : List Byte) :
    reqPolicySet tag body =
      fun s => judged tag (editCheck (body.length == 12) s) (policySetCarryOut tag body) s := rfl

theorem reqPolicySet_of_length {body : List Byte} (hlength : body.length = 12) (tag : Byte) :
    reqPolicySet tag body = fun s => judged tag (editCheck true s) (policySetCarryOut tag body) s := by
  rw [reqPolicySet_eq, beq_iff_eq.2 hlength]

theorem reqPolicySet_of_length_ne {body : List Byte} (hlength : body.length ≠ 12) (tag : Byte) :
    reqPolicySet tag body = fun s => judged tag (editCheck false s) (policySetCarryOut tag body) s := by
  rw [reqPolicySet_eq, beq_eq_false_iff_ne.2 hlength]

/-- The device after a POLICY SET taken: the new record is written and the request answered OK. -/
def policyTaken (tag : Byte) (p : Policy) (s : State) : State :=
  okReply tag [] (writePolicy p (setPrevious .taken s))

@[simp] theorem policyTaken_wake (tag : Byte) (p : Policy) (s : State) :
    (policyTaken tag p s).wake = { s.wake with policy := p } := rfl

@[simp] theorem policyTaken_host (tag : Byte) (p : Policy) (s : State) :
    (policyTaken tag p s).host = (answered s tag [0]).host := rfl

theorem policyTaken_sameFrame (tag : Byte) (p : Policy) (s : State) : sameFrame s (policyTaken tag p s) :=
  supersede_frame (fun k => { k with policy := some (policyRead s) }) s

/-- Beside the record and the host port, a POLICY SET taken leaves at most what the classification in progress still
reads of the old record (R52). -/
theorem policyTaken_sameTables (tag : Byte) (p : Policy) (s : State) :
    sameTables { s with wake := (policyTaken tag p s).wake } { policyTaken tag p s with host := s.host } :=
  ⟨rfl, rfl, rfl, rfl, rfl, rfl, rfl, rfl, rfl, rfl, rfl, policyTaken_sameFrame tag p s, rfl, rfl⟩

/-- Settles O35: the length is judged first, then the state, then every field; what passes all three replaces the record
whole. -/
theorem policySetChecksAndReplaces : Obligations.PolicySetChecksAndReplaces := by
  intro tag body s hfree good
  rw [exec_policySet]
  refine ⟨fun hlength => ?length, fun hlength hstate => ?state, fun hlength hattended hbad => ?fields,
    fun hlength hattended hgood => ?taken⟩
  case length => rw [reqPolicySet_of_length_ne hlength, hostRequest_edit_badLength hfree]
  case state => rw [reqPolicySet_of_length hlength, hostRequest_edit_wrongState hfree hstate]
  case fields =>
    rw [reqPolicySet_of_length hlength, hostRequest_edit_attended hfree hattended,
      policySetCarryOut_of_not_inRange hbad, refuse_taken]
  case taken =>
    rw [reqPolicySet_of_length hlength, hostRequest_edit_attended hfree hattended,
      policySetCarryOut_of_inRange hgood]
    exact ⟨policyTaken tag (policyOfBytes body) s, rfl, policyTaken_wake tag _ s, policyTaken_host tag _ s,
      policyTaken_sameTables tag _ s⟩

/-! NOP and POLICY GET (R173, R176). -/

theorem exec_nop (tag : Byte) (body : List Byte) (s : State) :
    exec (.nop tag body) s = .next (hostRequest (reqNop tag body) s) := rfl

theorem exec_policyGet (tag : Byte) (body : List Byte) (s : State) :
    exec (.policyGet tag body) s = .next (hostRequest (reqPolicyGet tag body) s) := rfl

/-- NOP changes nothing but the port: the time, the number of notices and the lost count are in the reply (R173). -/
theorem hostRequest_nop {s : State} (hfree : PortFree s) (tag : Byte) :
    hostRequest (reqNop tag []) s =
      answered s tag ([0] ++ be32 s.time.toNat ++ [byte s.host.notices.length] ++ be16 s.host.lost) :=
  (hostRequest_judged_nil hfree tag _).trans (okReply_taken tag _ s)

/-- POLICY GET changes nothing but the port: the record as it stands is in the reply (R176). -/
theorem hostRequest_policyGet {s : State} (hfree : PortFree s) (tag : Byte) :
    hostRequest (reqPolicyGet tag []) s = answered s tag (0 :: policyBytes s.wake.policy) :=
  (hostRequest_judged_nil hfree tag _).trans (okReply_taken tag _ s)

/-- Settles O30: both requests are judged by the length of their body alone; with an empty body each is answered from the
state as it stands, with any other each is refused. -/
theorem nopAndPolicyGetReport : Obligations.NopAndPolicyGetReport := by
  intro tag body s hfree
  rw [exec_nop, exec_policyGet]
  constructor
  · rintro rfl
    rw [hostRequest_nop hfree, hostRequest_policyGet hfree]
    exact ⟨rfl, rfl⟩
  · intro hbody
    have hrefused := hostRequest_judged_of_ne_nil hfree tag hbody
    exact ⟨congrArg _ (hrefused _), congrArg _ (hrefused _)⟩

end Sys2Proof.Proofs
end

section
/-! PROOFS. What a step can do, said once: the operations that the commands are made of, and how a relation that each of
them has passes to every step. -/

namespace Sys2Proof.Proofs

open Sys2Proof Sys2Proof.Machine

/-- The meaning of a classification's step. -/
def classStep : ClassStep → Classification → State → State
  | .length => stepLength
  | .vlan => stepVlan
  | .destination => stepDestination
  | .session => stepSession
  | .responder => stepResponder
  | .rule => stepRule
  | .default => stepDefault

/-- A classification's event runs its step where the frame stands there. -/
theorem exec_stepEvent (k : ClassStep) (s : State) : exec (stepEvent k) s = .next (atStep k (classStep k) s) := by
  cases k <;> rfl

theorem atStep_of_ne {k : ClassStep} {s : State} (run : Classification → State → State)
    (h : ∀ c, s.classifier.current = some c → c.step ≠ k) : atStep k run s = s := by
  unfold atStep
  split
  · rename_i c hc
    rw [if_neg (h c hc)]
  · rfl

theorem atStep_of_current {k : ClassStep} {s : State} {c : Classification} (run : Classification → State → State)
    (hc : s.classifier.current = some c) (hk : c.step = k) : atStep k run s = run c s := by
  simp [atStep, hc, hk]

/-- A request command is its request carried out at the port. -/
theorem exec_requestCommand (k : RequestKind) (tag : Byte) (body : List Byte) (s : State) :
    exec (requestCommand k tag body) s = .next (hostRequest (runRequest k tag body) s) := by
  cases k <;> rfl

/-- The operations that commands are made of, each in a relation between the state before it and the state after. -/
structure ExecParts (R : State → State → Prop) : Prop where
  /-- Nothing happens. -/
  same : ∀ s, R s s
  lineChange : ∀ s high, R s (moveHostup high s)
  rise : ∀ s, R s (takeRise s)
  fall : ∀ s, R s (takeFall s)
  hcsFall : ∀ s, R s (fallHcs s)
  hcsRise : ∀ s clocked, R s (riseHcs clocked s)
  busy : ∀ s, R s (notTakenBusy s)
  request : ∀ s k tag body, R s (runRequest k tag body (setPrevious .taken s))
  statusClear : ∀ s tag, R s (reqStatusClear tag (setPrevious .taken s))
  record : ∀ s r, R s (takeRecord r s)
  recordError : ∀ s, R s (recordError s)
  frame : ∀ s, R s (takeFrame s)
  classify : ∀ s c, s.classifier.current = some c → R s (classStep c.step c s)
  period : ∀ s c, R s (takePeriod c s)
  margin : ∀ s i, R s (takeMargin i s)
  lease : ∀ s i, R s (takeLeaseDeadline i s)
  report : ∀ s i, R s (takeReportDeadline i s)
  due : ∀ s i, R s (takeDue i s)
  probe : ∀ s i, R s (takeProbeTimer i s)
  response : ∀ s, R s (takeResponse s)
  gap : ∀ s, R s (takeGap s)
  claim : ∀ s, R s (takeClaim s)

/-- What a full reset and the queue add to the commands' operations in a step. -/
structure StepParts (R : State → State → Prop) : Prop extends ExecParts R where
  /-- Taking a command off the queue is no part of the relation. -/
  queue : ∀ s t l, R { s with pending := l } t → R s t
  /-- What the part does while no command waits. -/
  idle : ∀ s time pending freeCount, R s { s with time := time, pending := pending, freeCount := freeCount }
  reset : ∀ s a b, R s (fullReset a b s)

/-- Every command is a host request of a kind, STATUS with CLEAR, a step of the classification, or one of the events of
the lines, the station link and the timers. -/
theorem instr_cases {P : Instr → Prop} (request : ∀ k tag body, P (requestCommand k tag body))
    (statusClear : ∀ tag, P (.statusClear tag)) (classify : ∀ k, P (stepEvent k))
    (other : ∀ c, isRequest c = false → (∀ k, c ≠ stepEvent k) → P c) (c : Instr) : P c := by
  cases c
  case nop => exact request .nop _ _
  case handOver => exact request .handOver _ _
  case takeBack => exact request .takeBack _ _
  case identityPut => exact request .identityPut _ _
  case identityDrop => exact request .identityDrop _ _
  case identityList => exact request .identityList _ _
  case rulePut => exact request .rulePut _ _
  case ruleDrop => exact request .ruleDrop _ _
  case ruleList => exact request .ruleList _ _
  case templatePut => exact request .templatePut _ _
  case templateDrop => exact request .templateDrop _ _
  case templateList => exact request .templateList _ _
  case sessionPut => exact request .sessionPut _ _
  case sessionDrop => exact request .sessionDrop _ _
  case sessionGet => exact request .sessionGet _ _
  case policySet => exact request .policySet _ _
  case policyGet => exact request .policyGet _ _
  case wakeRecord => exact request .wakeRecord _ _
  case evidenceRead => exact request .evidenceRead _ _
  case evidenceRelease => exact request .evidenceRelease _ _
  case holdStatus => exact request .holdStatus _ _
  case status => exact request .status _ _
  case clearAll => exact request .clearAll _ _
  case statusClear => exact statusClear _
  case lengthCheck => exact classify .length
  case vlanCheck => exact classify .vlan
  case destinationCheck => exact classify .destination
  case sessionDispatch => exact classify .session
  case responderDispatch => exact classify .responder
  case ruleMatch => exact classify .rule
  case defaultAction => exact classify .default
  all_goals exact other _ rfl (fun k => by cases k <;> exact nofun)

theorem ExecParts.hostRequest {R : State → State → Prop} (p : ExecParts R) (run : State → State) (s : State)
    (h : R s (run (setPrevious .taken s))) : R s (hostRequest run s) := by
  unfold Machine.hostRequest
  split
  · exact p.busy s
  · exact h

theorem ExecParts.atStep {R : State → State → Prop} (p : ExecParts R) (k : ClassStep) (s : State) :
    R s (atStep k (classStep k) s) := by
  unfold Machine.atStep
  split
  · rename_i c hc
    split
    · rename_i hk
      exact hk ▸ p.classify s c hc
    · exact p.same s
  · exact p.same s

theorem ExecParts.takeBytes {R : State → State → Prop} (p : ExecParts R) (bytes : List Byte) (s : State) :
    R s (takeBytes bytes s) := by
  unfold Machine.takeBytes
  split
  · exact p.record s _
  · exact p.recordError s

/-- A relation that the commands' operations have is one that every command has, a full reset where it has it too. -/
theorem ExecParts.exec {R : State → State → Prop} (p : ExecParts R) (c : Instr) (s : State)
    (hreset : ∀ a b, c = .fullReset a b → R s (fullReset a b s)) : ∃ t, exec c s = .next t ∧ R s t := by
  induction c using instr_cases with
  | request k tag body => exact ⟨_, exec_requestCommand k tag body s, p.hostRequest _ s (p.request s k tag body)⟩
  | statusClear tag => exact ⟨_, rfl, p.hostRequest _ s (p.statusClear s tag)⟩
  | classify k => exact ⟨_, exec_stepEvent k s, p.atStep k s⟩
  | other c hreq hstep =>
    cases c <;> try contradiction
    case fullReset a b => exact ⟨_, rfl, hreset a b rfl⟩
    case hostupLineChange high => exact ⟨_, rfl, p.lineChange s high⟩
    case hostupRiseTaken => exact ⟨_, rfl, p.rise s⟩
    case hostupFallTaken => exact ⟨_, rfl, p.fall s⟩
    case hcsFall => exact ⟨_, rfl, p.hcsFall s⟩
    case hcsRise clocked => exact ⟨_, rfl, p.hcsRise s clocked⟩
    case rxFrame f => exact ⟨_, rfl, p.record s (.rxFrame f)⟩
    case txDone => exact ⟨_, rfl, p.record s .txDone⟩
    case txRefused => exact ⟨_, rfl, p.record s .txRefused⟩
    case deliverDone => exact ⟨_, rfl, p.record s .deliverDone⟩
    case linkUp => exact ⟨_, rfl, p.record s .linkUp⟩
    case linkDown => exact ⟨_, rfl, p.record s .linkDown⟩
    case portReset => exact ⟨_, rfl, p.record s .portReset⟩
    case stationRecordError bytes => exact ⟨_, rfl, p.takeBytes bytes s⟩
    case frameTaken => exact ⟨_, rfl, p.frame s⟩
    case lengthCheck => exact absurd rfl (hstep .length)
    case vlanCheck => exact absurd rfl (hstep .vlan)
    case destinationCheck => exact absurd rfl (hstep .destination)
    case sessionDispatch => exact absurd rfl (hstep .session)
    case responderDispatch => exact absurd rfl (hstep .responder)
    case ruleMatch => exact absurd rfl (hstep .rule)
    case defaultAction => exact absurd rfl (hstep .default)
    case periodExpiry c => exact ⟨_, rfl, p.period s c⟩
    case leaseMarginReached i => exact ⟨_, rfl, p.margin s i⟩
    case leaseDeadline i => exact ⟨_, rfl, p.lease s i⟩
    case reportDeadline i => exact ⟨_, rfl, p.report s i⟩
    case dueExpiry i => exact ⟨_, rfl, p.due s i⟩
    case probeTimerExpiry i => exact ⟨_, rfl, p.probe s i⟩
    case wakeResponseExpiry => exact ⟨_, rfl, p.response s⟩
    case retryGapExpiry => exact ⟨_, rfl, p.gap s⟩
    case claimWindowExpiry => exact ⟨_, rfl, p.claim s⟩

/-- While no command waits, the part changes its time, its queue and its count of free values only. -/
theorem idle_eq (s : State) :
    ∃ time pending freeCount, idle s = { s with time := time, pending := pending, freeCount := freeCount } := by
  unfold Machine.idle
  split
  · exact ⟨s.time + 1, s.pending, s.freeCount, rfl⟩
  · exact ⟨s.time, _, s.freeCount, rfl⟩
  · exact ⟨s.time, _, s.freeCount + 1, rfl⟩

/-- A relation that the commands' operations have is one that every step has. -/
theorem StepParts.step {R : State → State → Prop} (p : StepParts R) {s t : State} (h : step s = .next t) : R s t := by
  unfold Machine.step at h
  split at h
  · obtain ⟨time, pending, freeCount, hidle⟩ := idle_eq s
    injection h with h
    rw [← h, hidle]
    exact p.idle s time pending freeCount
  · rename_i c rest _
    obtain ⟨u, hu, hR⟩ := p.exec c { s with pending := rest } (fun a b _ => p.reset _ a b)
    rw [hu] at h
    injection h with h
    exact h ▸ p.queue s u rest hR

end Sys2Proof.Proofs
end

section
/-! PROOFS. What a request can do, said once: a taken request is refused, or it has one of the effects below. -/

namespace Sys2Proof.Proofs

open Sys2Proof Sys2Proof.Machine

/-- What a request taken in a state can do. -/
inductive RequestEffect (k : RequestKind) (tag : Byte) (s : State) : State → Prop where
  /-- A check fails: the reply is the status alone (R169). -/
  | refused (status : Status) : status ≠ .ok → RequestEffect k tag s (refuse tag status s)
  /-- A read, or an edit that has no other effect. -/
  | reported (rest : List Byte) : RequestEffect k tag s (okReply tag rest s)
  | released (rest : List Byte) : RequestEffect k tag s (okReply tag rest (releaseEvidence s))
  | countersCleared : RequestEffect k tag s (reqStatusClear tag s)
  | entryWritten (i : Nat) (e : Option IdentityEntry) :
      RequestEffect k tag s (okReply tag [] (writeEntry i e s))
  | ruleInserted (rest : List Byte) (p : Nat) (r : Rule) :
      s.classifier.rules.length < 32 → r.hits = 0 → RequestEffect k tag s (okReply tag rest (insertRule p r s))
  | ruleRemoved (rest : List Byte) (p : Nat) : RequestEffect k tag s (okReply tag rest (removeRule p s))
  | templateWritten (rest : List Byte) (i : Nat) (t : Option Template) :
      RequestEffect k tag s (okReply tag rest (writeTemplate i t s))
  | sessionPut (i : Nat) (x : Session) :
      x.nextDue = none → x.deadline = none → x.phase = .none →
      RequestEffect k tag s (okReply tag [] (writeSession i (some x) s))
  | sessionDropped (i : Nat) : RequestEffect k tag s (okReply tag [] (writeSession i none s))
  | policySet (p : Policy) :
      s.controller.standIn = .attended → 25 ≤ p.highMark → RequestEffect k tag s (okReply tag [] (writePolicy p s))
  | cleared : s.controller.standIn = .attended → RequestEffect k tag s (okReply tag [] (clearTables s))
  | handedOver (depth : Depth) :
      k = .handOver → s.controller.standIn = .attended → RequestEffect k tag s (startStandIn depth tag s)
  | takenBack (outcome : WakeOutcome) :
      s.controller.standIn = .standing ∨ s.controller.standIn = .calling → RequestEffect k tag s (takeBack tag outcome s)

variable {k : RequestKind}

/-- A request judged by checks that pass no status OK is refused, or carried out where none fails. -/
theorem judged_effect {tag : Byte} {check : Option Status} {carryOut : State → State} {s : State}
    (hcheck : check ≠ some .ok) (hrun : check = none → RequestEffect k tag s (carryOut s)) :
    RequestEffect k tag s (judged tag check carryOut s) := by
  unfold judged
  split
  · exact .refused _ (fun h => hcheck (h ▸ rfl))
  · exact hrun rfl

theorem emptyCheck_ne_ok (body : List Byte) : emptyCheck body ≠ some .ok := by
  unfold emptyCheck; split <;> simp

theorem startCheck_ne_ok (bound : Nat) (body : List Byte) : startCheck bound body ≠ some .ok := by
  unfold startCheck; split <;> (try split) <;> simp

theorem editCheck_ne_ok (lengthOk : Bool) (s : State) : editCheck lengthOk s ≠ some .ok := by
  unfold editCheck; split <;> (try split) <;> simp

theorem attended_of_editCheck {lengthOk : Bool} {s : State} (h : editCheck lengthOk s = none) :
    s.controller.standIn = .attended := by
  unfold editCheck at h
  split at h
  · cases h
  · split at h
    · cases h
    · rename_i hst
      exact not_not.1 hst

/-- An edit judged by its length and the state. -/
theorem edit_effect {tag : Byte} {lengthOk : Bool} {carryOut : State → State} {s : State}
    (hrun : s.controller.standIn = .attended → RequestEffect k tag s (carryOut s)) :
    RequestEffect k tag s (judged tag (editCheck lengthOk s) carryOut s) :=
  judged_effect (editCheck_ne_ok _ s) (fun h => hrun (attended_of_editCheck h))

theorem entryCheck_ne_ok (entries : List (Option IdentityEntry)) (i : Nat) (e : IdentityEntry) :
    entryCheck entries i e ≠ some .ok := by
  unfold entryCheck; split <;> (try split) <;> (try split) <;> simp

theorem rulePutCheck_ne_ok (p : Nat) (r : Rule) (s : State) : rulePutCheck p r s ≠ some .ok := by
  unfold rulePutCheck; split <;> (try split) <;> (try split) <;> simp

theorem sessionCheck_ne_ok (i : Nat) (x : Session) (s : State) : sessionCheck i x s ≠ some .ok := by
  unfold sessionCheck; split <;> (try split) <;> (try split) <;> simp

theorem handOverCheck_ne_ok (s : State) : handOverCheck s ≠ some .ok := by
  unfold handOverCheck; split <;> (try split) <;> (try split) <;> simp

theorem rules_length_of_rulePutCheck {p : Nat} {r : Rule} {s : State} (h : rulePutCheck p r s = none) :
    s.classifier.rules.length < 32 := by
  unfold rulePutCheck at h
  split at h <;> (try split at h) <;> (try split at h) <;> simp_all

theorem rulePutRule_hits {body : List Byte} {r : Rule} (h : rulePutRule body = some r) : r.hits = 0 := by
  unfold rulePutRule at h
  split at h
  · split at h
    · cases h
      rfl
    · cases h
  · cases h

/-- A record as SESSION PUT writes it has no timer and no probe (R92). -/
theorem sessionPutRecord_fresh {nextProbe : Nat} {body : List Byte} {i : Nat} {x : Session}
    (h : sessionPutRecord nextProbe body = some (i, x)) : x.nextDue = none ∧ x.deadline = none ∧ x.phase = .none := by
  unfold sessionPutRecord at h
  dsimp only at h
  split at h
  · cases h
    exact ⟨rfl, rfl, rfl⟩
  · cases h

theorem policySetRecord_highMark {body : List Byte} {p : Policy} (h : policySetRecord body = some p) :
    25 ≤ p.highMark := by
  by_cases hgood : PolicyInRange body
  · rw [policySetRecord_of_inRange hgood] at h
    cases h
    obtain ⟨_, _, _, _, hmark, _⟩ := hgood
    exact hmark
  · rw [policySetRecord_of_not_inRange hgood] at h
    cases h

theorem reqIdentityPut_effect (tag : Byte) (body : List Byte) (s : State) :
    RequestEffect k tag s (reqIdentityPut tag body s) := by
  refine edit_effect fun _ => ?_
  split
  · exact .refused _ (by simp)
  · exact judged_effect (entryCheck_ne_ok _ _ _) fun _ => .entryWritten _ _

theorem reqIdentityDrop_effect (tag : Byte) (body : List Byte) (s : State) :
    RequestEffect k tag s (reqIdentityDrop tag body s) := by
  refine edit_effect fun _ => ?_
  split
  · exact .refused _ (by simp)
  · split
    · exact .refused _ (by simp)
    · split
      · exact .refused _ (by simp)
      · exact .entryWritten _ _

theorem reqRulePut_effect (tag : Byte) (body : List Byte) (s : State) :
    RequestEffect k tag s (reqRulePut tag body s) := by
  refine edit_effect fun _ => ?_
  split
  · exact .refused _ (by simp)
  · rename_i r hr
    exact judged_effect (rulePutCheck_ne_ok _ _ _) fun h =>
      .ruleInserted _ _ r (rules_length_of_rulePutCheck h) (rulePutRule_hits hr)

theorem reqRuleDrop_effect (tag : Byte) (body : List Byte) (s : State) :
    RequestEffect k tag s (reqRuleDrop tag body s) := by
  refine edit_effect fun _ => ?_
  split
  · exact .refused _ (by simp)
  · split
    · exact .refused _ (by simp)
    · exact .ruleRemoved _ _

theorem reqTemplatePut_effect (tag : Byte) (body : List Byte) (s : State) :
    RequestEffect k tag s (reqTemplatePut tag body s) := by
  refine edit_effect fun _ => ?_
  split
  · exact .refused _ (by simp)
  · split
    · exact .refused _ (by simp)
    · exact .templateWritten _ _ _

theorem reqTemplateDrop_effect (tag : Byte) (body : List Byte) (s : State) :
    RequestEffect k tag s (reqTemplateDrop tag body s) := by
  refine edit_effect fun _ => ?_
  split
  · exact .refused _ (by simp)
  · split
    · exact .refused _ (by simp)
    · split
      · exact .refused _ (by simp)
      · exact .templateWritten _ _ _

theorem reqSessionPut_effect (tag : Byte) (body : List Byte) (s : State) :
    RequestEffect k tag s (reqSessionPut tag body s) := by
  refine edit_effect fun _ => ?_
  split
  · exact .refused _ (by simp)
  · rename_i p hp
    obtain ⟨hdue, hdeadline, hphase⟩ := sessionPutRecord_fresh hp
    exact judged_effect (sessionCheck_ne_ok _ _ _) fun _ => .sessionPut p.1 p.2 hdue hdeadline hphase

theorem reqSessionDrop_effect (tag : Byte) (body : List Byte) (s : State) :
    RequestEffect k tag s (reqSessionDrop tag body s) := by
  refine edit_effect fun _ => ?_
  split
  · exact .refused _ (by simp)
  · split
    · exact .refused _ (by simp)
    · exact .sessionDropped _

theorem reqPolicySet_effect (tag : Byte) (body : List Byte) (s : State) :
    RequestEffect k tag s (reqPolicySet tag body s) := by
  refine edit_effect fun hattended => ?_
  split
  · exact .refused _ (by simp)
  · rename_i p hp
    exact .policySet p hattended (policySetRecord_highMark hp)

theorem reqStatus_effect (tag : Byte) (body : List Byte) (s : State) : RequestEffect k tag s (reqStatus tag body s) := by
  unfold reqStatus
  split
  · exact .refused _ (by simp)
  · split
    · exact .reported _
    · split
      · exact .countersCleared
      · exact .refused _ (by simp)

theorem reqHandOver_effect (tag : Byte) (body : List Byte) (s : State) :
    RequestEffect .handOver tag s (reqHandOver tag body s) := by
  refine edit_effect fun hattended => ?_
  split
  · exact .refused _ (by simp)
  · exact judged_effect (handOverCheck_ne_ok s) fun _ => .handedOver _ rfl hattended

theorem reqTakeBack_effect (tag : Byte) (body : List Byte) (s : State) :
    RequestEffect k tag s (reqTakeBack tag body s) := by
  refine judged_effect (emptyCheck_ne_ok body) fun _ => ?_
  split
  case h_1 hst => exact .takenBack .self (.inl hst)
  case h_2 hst => exact .takenBack .claimed (.inr hst)
  all_goals exact .refused _ (by simp)

/-- The reply of a read in pieces begins with the status OK. -/
theorem produceReply_pieces (tag : Byte) (before after : List Byte) (records : List (Nat × List Byte)) (s : State) :
    RequestEffect k tag s (produceReply tag (piecesBody before after records) s) := by
  unfold piecesBody
  simp only [List.cons_append, List.nil_append]
  exact .reported _

theorem reqNop_effect (tag : Byte) (body : List Byte) (s : State) : RequestEffect k tag s (reqNop tag body s) :=
  judged_effect (emptyCheck_ne_ok body) fun _ => .reported _

theorem reqIdentityList_effect (tag : Byte) (body : List Byte) (s : State) :
    RequestEffect k tag s (reqIdentityList tag body s) :=
  judged_effect (startCheck_ne_ok _ body) fun _ => produceReply_pieces tag _ _ _ s

theorem reqRuleList_effect (tag : Byte) (body : List Byte) (s : State) :
    RequestEffect k tag s (reqRuleList tag body s) :=
  judged_effect (startCheck_ne_ok _ body) fun _ => produceReply_pieces tag _ _ _ s

theorem reqTemplateList_effect (tag : Byte) (body : List Byte) (s : State) :
    RequestEffect k tag s (reqTemplateList tag body s) :=
  judged_effect (startCheck_ne_ok _ body) fun _ => produceReply_pieces tag _ _ _ s

theorem reqSessionGet_effect (tag : Byte) (body : List Byte) (s : State) :
    RequestEffect k tag s (reqSessionGet tag body s) :=
  judged_effect (startCheck_ne_ok _ body) fun _ => produceReply_pieces tag _ _ _ s

theorem reqHoldStatus_effect (tag : Byte) (body : List Byte) (s : State) :
    RequestEffect k tag s (reqHoldStatus tag body s) :=
  judged_effect (startCheck_ne_ok _ body) fun _ => produceReply_pieces tag _ _ _ s

theorem reqPolicyGet_effect (tag : Byte) (body : List Byte) (s : State) :
    RequestEffect k tag s (reqPolicyGet tag body s) :=
  judged_effect (emptyCheck_ne_ok body) fun _ => .reported _

theorem reqWakeRecord_effect (tag : Byte) (body : List Byte) (s : State) :
    RequestEffect k tag s (reqWakeRecord tag body s) :=
  judged_effect (emptyCheck_ne_ok body) fun _ => .reported _

theorem reqEvidenceRead_effect (tag : Byte) (body : List Byte) (s : State) :
    RequestEffect k tag s (reqEvidenceRead tag body s) :=
  judged_effect (emptyCheck_ne_ok body) fun _ => .reported _

theorem reqEvidenceRelease_effect (tag : Byte) (body : List Byte) (s : State) :
    RequestEffect k tag s (reqEvidenceRelease tag body s) :=
  judged_effect (emptyCheck_ne_ok body) fun _ => .released _

theorem reqClearAll_effect (tag : Byte) (body : List Byte) (s : State) :
    RequestEffect k tag s (reqClearAll tag body s) :=
  edit_effect fun hattended => .cleared hattended

/-- Every request taken is refused or has one of the effects. -/
theorem runRequest_effect (k : RequestKind) (tag : Byte) (body : List Byte) (s : State) :
    RequestEffect k tag s (runRequest k tag body s) := by
  cases k
  case nop => exact reqNop_effect tag body s
  case handOver => exact reqHandOver_effect tag body s
  case takeBack => exact reqTakeBack_effect tag body s
  case identityPut => exact reqIdentityPut_effect tag body s
  case identityDrop => exact reqIdentityDrop_effect tag body s
  case identityList => exact reqIdentityList_effect tag body s
  case rulePut => exact reqRulePut_effect tag body s
  case ruleDrop => exact reqRuleDrop_effect tag body s
  case ruleList => exact reqRuleList_effect tag body s
  case templatePut => exact reqTemplatePut_effect tag body s
  case templateDrop => exact reqTemplateDrop_effect tag body s
  case templateList => exact reqTemplateList_effect tag body s
  case sessionPut => exact reqSessionPut_effect tag body s
  case sessionGet => exact reqSessionGet_effect tag body s
  case sessionDrop => exact reqSessionDrop_effect tag body s
  case policySet => exact reqPolicySet_effect tag body s
  case policyGet => exact reqPolicyGet_effect tag body s
  case wakeRecord => exact reqWakeRecord_effect tag body s
  case evidenceRead => exact reqEvidenceRead_effect tag body s
  case evidenceRelease => exact reqEvidenceRelease_effect tag body s
  case holdStatus => exact reqHoldStatus_effect tag body s
  case status => exact reqStatus_effect tag body s
  case clearAll => exact reqClearAll_effect tag body s

end Sys2Proof.Proofs
end

section
/-! PROOFS. How an invariant passes through every step: what has to be shown of it, given what a request can do. -/

namespace Sys2Proof.Proofs

open Sys2Proof Sys2Proof.Machine

/-! What a segment does to its record keeps the record in order. -/

/-- A change of other fields keeps a record in order. -/
theorem sessionOk_of_eq {x y : Session} (hstate : y.state = x.state) (hphase : y.phase = x.phase)
    (hdue : y.nextDue = x.nextDue) (hdeadline : y.deadline = x.deadline) (h : SessionOk x) : SessionOk y := by
  unfold SessionOk at *
  rwa [hstate, hphase, hdue, hdeadline]

/-- A record without a due time, a deadline and a probe is in order in any state. -/
theorem sessionOk_of_idle {x : Session} (hdue : x.nextDue = none) (hdeadline : x.deadline = none)
    (hphase : x.phase = .none) : SessionOk x := by
  simp [SessionOk, hdue, hdeadline, hphase]

/-- A READY record without a deadline and a probe is in order. -/
theorem sessionOk_of_ready {x : Session} (hstate : x.state = .ready) (hdeadline : x.deadline = none)
    (hphase : x.phase = .none) : SessionOk x := by
  simp [SessionOk, hstate, hdeadline, hphase]

theorem sessionOk_idle_of_ready {x : Session} (h : SessionOk x) (hstate : x.state = .ready) :
    x.deadline = none ∧ x.phase = .none := by
  obtain ⟨_, hdeadline, hphase⟩ := h
  rw [hstate] at hdeadline hphase
  exact ⟨by simpa using hdeadline, by simpa using hphase⟩

theorem sessionOk_onPeerAck {x : Session} (h : SessionOk x) (now : Time) : SessionOk (x.onPeerAck now) := by
  unfold Session.onPeerAck
  dsimp only
  split
  case h_1 hstate => exact sessionOk_of_ready hstate (sessionOk_idle_of_ready h hstate).1 (sessionOk_idle_of_ready h hstate).2
  case h_2 => exact sessionOk_of_ready rfl rfl rfl
  all_goals exact sessionOk_of_eq rfl rfl rfl rfl h

theorem sessionOk_onPeerProbe {x : Session} (h : SessionOk x) (kept : Bool) (now : Time) :
    SessionOk (x.onPeerProbe kept now) := by
  unfold Session.onPeerProbe
  dsimp only
  split
  case h_1 hstate => exact sessionOk_of_ready hstate (sessionOk_idle_of_ready h hstate).1 (sessionOk_idle_of_ready h hstate).2
  case h_2 => exact sessionOk_of_ready rfl rfl rfl
  all_goals exact sessionOk_of_eq rfl rfl rfl rfl h

theorem sessionOk_onData {x : Session} (h : SessionOk x) (held : Bool) (now : Time) :
    SessionOk (x.onData held now) := by
  unfold Session.onData
  dsimp only
  split
  · exact sessionOk_of_eq rfl rfl rfl rfl h
  · exact sessionOk_of_idle rfl rfl rfl

theorem sessionOk_onEnd (x : Session) (now : Time) : SessionOk (x.onEnd now) := sessionOk_of_idle rfl rfl rfl

theorem sessionOk_settleProbe {x : Session} (h : SessionOk x) (number : Nat) (done : Bool) (now : Time) :
    SessionOk (x.settleProbe number done now) := by
  unfold Session.settleProbe
  split
  · exact h
  · dsimp only
    split
    · rename_i hcurrent
      obtain ⟨hdue, _, _⟩ := h
      simp only [Session.isCurrent, Bool.and_eq_true, beq_iff_eq] at hcurrent
      simp_all [SessionOk]
    · exact sessionOk_of_eq rfl rfl rfl rfl h

/-- The counters that R181 and R182 do not speak of. -/
def asideCounter : Counter → Bool
  | .framesTaken | .settled _ | .displaced | .delivered | .cutDiscarded => false
  | _ => true

/-- What the ordinary operations keep: the ones that settle no frame, and neither add a record to the hold queue nor take
one off it, each under the condition that it is used in. -/
structure Ordinary (P : State → Prop) : Prop where
  idle : ∀ s time pending freeCount, P s → P { s with time := time, pending := pending, freeCount := freeCount }
  lineChange : ∀ s high, P s → P (moveHostup high s)
  rise : ∀ s, P s → P (takeRise s)
  response : ∀ s, P s → P (takeResponse s)
  gap : ∀ s, P s → P (takeGap s)
  hcsFall : ∀ s, P s → P (fallHcs s)
  transaction : ∀ s clocked, P s → P (endTransaction clocked s)
  unseen : ∀ s, P s → P { s with host := { s.host with hcsLow := false, frameOut := none, unseen := false } }
  previous : ∀ s o, P s → P (setPrevious o s)
  count : ∀ s c n, asideCounter c = true → P s → P (count c n s)
  reply : ∀ s tag body, P s → P (produceReply tag body s)
  release : ∀ s, P s → P (releaseEvidence s)
  writeEntry : ∀ s i e, P s → P (writeEntry i e s)
  insertRule : ∀ s p r, s.classifier.rules.length < 32 → r.hits = 0 → P s → P (insertRule p r s)
  removeRule : ∀ s p, P s → P (removeRule p s)
  writeTemplate : ∀ s i t, P s → P (writeTemplate i t s)
  writeSession : ∀ s i x, (∀ y, x = some y → SessionOk y) → P s → P (writeSession i x s)
  writePolicy : ∀ s p, s.controller.standIn = .attended → 25 ≤ p.highMark → P s → P (writePolicy p s)
  startBlocks : ∀ s depth tag, s.controller.standIn = .attended → P s → P (startBlocks depth tag s)
  endArming : ∀ s linkDown, s.controller.standIn = .arming → P s → P (endArming linkDown s)
  enterReturning : ∀ s reason outcome, s.controller.standIn = .standing ∨ s.controller.standIn = .calling →
    P s → P (enterReturning reason outcome s)
  checkDrained : ∀ s, P s → P (checkDrained s)
  report : ∀ s r, P s → P (reportCause r s)
  offer : ∀ s kind owner f, (∀ build entry, owner = .listItem build entry → build ≤ s.responder.build) →
    P s → P (offerTx kind owner f s)
  turn : ∀ s turn, P s → P { s with port := { s.port with turn := turn } }
  popped : ∀ s x rest, s.port.txQueue = x :: rest → P s → P { s with port := { s.port with txQueue := rest } }
  listSettled : ∀ s m n, P s →
    P { s with responder := { s.responder with settledDone := m, settledRefused := n } }
  listed : ∀ s l, P s → P { s with responder := { s.responder with list := l } }
  entry : ∀ s i f, P s → P (modifyEntry i f s)
  session : ∀ s i f, (∀ x, lookup s.keeper.sessions i = some x → SessionOk x → SessionOk (f x)) →
    P s → P (modifySession i f s)
  nextProbe : ∀ s n, P s → P { s with keeper := { s.keeper with nextProbe := n } }
  template : ∀ s i f, P s → P { s with builder := { s.builder with templates := modifyAt s.builder.templates i f } }
  rebuilt : ∀ s, P s → P (rebuildList s)
  linkChanged : ∀ s up record, P s →
    P (queueNotice (linkNotice s up record) { s with port := { s.port with linkUp := up } })
  sent : ∀ s r, P s → P (sendRecord r s)
  rxJoined : ∀ s f, s.port.rxBuffer.length < 6 → P s →
    P { s with port := { s.port with rxBuffer := s.port.rxBuffer ++ [f] } }
  portCleared : ∀ s, P s → P { s with port := { s.port with rxBuffer := [], txQueue := [] } }
  announcementsDropped : ∀ s, P s → P (dropAnnouncements s)
  probesRequeued : ∀ s, P s → P (requeueProbes s)
  deliveriesReset : ∀ s, P s → P (resetDeliveries s)
  sending : ∀ s, P s → P (sendingStep s)
  advance : ∀ s k, P s → P (advance k s)
  hit : ∀ s r place, P s → r.hits < r.limit → ((r, place) ∈ rulesRead s) →
    P (touchRule place (fun r => { r with hits := r.hits + 1 }) s)
  overflow : ∀ s place, P s → P (touchRule place (fun r => { r with overflows := inc32 r.overflows }) s)
  period : ∀ s c, P s → P (expirePeriod c s)

/-- What passes a property through every step: the ordinary operations keep P, and the one that ends its command makes Q of
it. Between a hold and the settling of its frame, H stands for P, by whether the hold was accepted; C holds while a frame
is in classification. -/
structure Passage (P : State → Prop) (H : Bool → State → Prop) (Q : State → Prop) (C : Prop) : Prop extends
    Ordinary P where
  hold : ∀ s f source kept, P s →
    H (requestHold f source kept s).accepted (requestHold f source kept s).state
  heldReport : ∀ s b r, H b s → H b (reportCause r s)
  heldFree : ∀ s b n, H b s → H b { s with freeCount := n }
  heldSession : ∀ s b i f, (∀ x, SessionOk x → SessionOk (f x)) → H b s → H b (modifySession i f s)
  classified : ∀ s c, s.classifier.current = some c → P s → C
  heldSettled : ∀ s b, C → H b s → Q (settle (if b then .held else .discarded) s)
  settled : ∀ s d, C → d ≠ .held → P s → Q (settle d s)
  done : ∀ s, P s → Q s
  reset : ∀ s a b, P s → Q (fullReset a b s)
  zeroed : ∀ s, P s → Q { s with counters := zeroCounters }
  cleared : ∀ s tag, s.controller.standIn = .attended → P s → Q (okReply tag [] (clearTables s))
  fall : ∀ s, P s → Q (takeFall s)
  delivered : ∀ s, P s → Q (takeDeliverAnswer s)
  frame : ∀ s, P s → Q (takeFrame s)

variable {P : State → Prop} {H : Bool → State → Prop} {Q : State → Prop} {C : Prop}

/-! The shared operations. -/

theorem Ordinary.free (p : Ordinary P) (s : State) (n : Nat) (h : P s) : P { s with freeCount := n } :=
  p.idle s s.time s.pending n h

/-- A report outside STANDING moves no state and sends no notice. -/
theorem reportCause_of_not_standing (r : Report) {s : State} (hst : s.controller.standIn ≠ .standing) :
    ∃ w, reportCause r s = { s with wake := w } := by
  unfold reportCause
  split
  · rw [if_neg (by simp [hst])]
    exact ⟨_, rfl⟩
  · exact ⟨s.wake, rfl⟩

theorem reportAll_of_not_standing (rs : List Report) {s : State} (hst : s.controller.standIn ≠ .standing) :
    ∃ w, reportAll rs s = { s with wake := w } := by
  induction rs generalizing s with
  | nil => exact ⟨s.wake, rfl⟩
  | cons r rs ih =>
    obtain ⟨w, hw⟩ := reportCause_of_not_standing r hst
    obtain ⟨w', hw'⟩ := ih (s := { s with wake := w }) hst
    exact ⟨w', by rw [reportAll, List.foldl_cons, hw]; exact hw'⟩

theorem reportTwo_controller (xs ys : List Report) {s : State} (hst : s.controller.standIn ≠ .standing) :
    (reportTwo xs ys s).controller = s.controller := by
  obtain ⟨w, hw⟩ := reportAll_of_not_standing (mergeReports (xs.length + ys.length) xs ys s.freeCount).1
    (s := { s with freeCount := (mergeReports (xs.length + ys.length) xs ys s.freeCount).2 }) hst
  rw [reportTwo, hw]

theorem Ordinary.reportAll (p : Ordinary P) (rs : List Report) (s : State) (h : P s) : P (reportAll rs s) :=
  foldl_pres P _ (fun s r => p.report s r) rs s h

theorem Ordinary.reportTwo (p : Ordinary P) (xs ys : List Report) (s : State) (h : P s) : P (reportTwo xs ys s) :=
  p.reportAll _ _ (p.free s _ h)

theorem Ordinary.touchEntry (p : Ordinary P) (s : State) (i : Nat) (f : IdentityEntry → IdentityEntry) (h : P s) :
    P (touchEntry i f s) := by
  unfold Machine.touchEntry
  split
  · exact h
  · exact p.entry s i f h

theorem Ordinary.touchSession (p : Ordinary P) (s : State) (i : Nat) (f : Session → Session)
    (hf : ∀ x, SessionOk x → SessionOk (f x)) (h : P s) : P (touchSession i f s) := by
  unfold Machine.touchSession
  split
  · exact h
  · exact p.session s i f (fun x _ => hf x) h

theorem Ordinary.touchTemplate (p : Ordinary P) (s : State) (i : Nat) (f : Template → Template) (h : P s) :
    P (touchTemplate i f s) := by
  unfold Machine.touchTemplate
  split
  · exact h
  · exact p.template s i f h

theorem Ordinary.checkArmingEnd (p : Ordinary P) (s : State) (h : P s) : P (checkArmingEnd s) := by
  unfold Machine.checkArmingEnd
  split
  · rename_i hc
    exact p.endArming s _ hc.1 h
  · exact h

theorem Ordinary.raiseAnswers (p : Ordinary P) (s : State) (i : Nat) (h : P s) : P (raiseAnswers i s) := by
  unfold Machine.raiseAnswers
  split
  · exact h
  · split
    · exact h
    · split
      · exact p.free _ _ (p.entry s _ _ h)
      · exact p.entry s _ _ h

theorem Ordinary.loseSession (p : Ordinary P) (s : State) (i : Nat) (h : P s) : P (loseSession i s) :=
  p.report _ _ (p.session s i _ (fun _ _ _ => sessionOk_of_idle rfl rfl rfl) h)

theorem Ordinary.leaveActive (p : Ordinary P) (s : State) (i : Nat) (h : P s) : P (leaveActive i s) := by
  unfold Machine.leaveActive
  dsimp only
  split
  · exact p.checkArmingEnd _ (foldl_pres P _ (fun s i => p.loseSession s i) _ _ (p.listed s _ h))
  · exact p.listed s _ h

theorem Ordinary.cedeEntry (p : Ordinary P) (s : State) (i : Nat) (h : P s) : P (cedeEntry i s) := by
  unfold Machine.cedeEntry
  split
  · exact h
  · exact p.leaveActive _ i (p.entry s _ _ h)

/-! Between a hold and the settling of its frame. -/

theorem Passage.heldReportAll (p : Passage P H Q C) (b : Bool) (rs : List Report) (s : State) (h : H b s) :
    H b (reportAll rs s) :=
  foldl_pres (H b) _ (fun s r => p.heldReport s b r) rs s h

theorem Passage.heldReportTwo (p : Passage P H Q C) (b : Bool) (xs ys : List Report) (s : State) (h : H b s) :
    H b (reportTwo xs ys s) :=
  p.heldReportAll b _ _ (p.heldFree s b _ h)

theorem Passage.heldTouch (p : Passage P H Q C) (b : Bool) (s : State) (i : Nat) (f : Session → Session)
    (hf : ∀ x, SessionOk x → SessionOk (f x)) (h : H b s) : H b (touchSession i f s) := by
  unfold Machine.touchSession
  split
  · exact h
  · exact p.heldSession s b i f hf h

/-! The offers to the transmit queue. -/

/-- The table holds a changed item where it held the item. -/
theorem lookup_modifyAt_self {α : Type} (l : List (Option α)) (i : Nat) (f : α → α) :
    lookup (modifyAt l i f) i = (lookup l i).map f := by
  unfold lookup modifyAt
  simp only [List.getD_eq_getElem?_getD, List.getElem?_modify]
  cases l[i]? <;> simp

theorem Ordinary.offerProbe (p : Ordinary P) (s : State) (i : Nat) (h : P s) : P (offerProbe i s) := by
  unfold Machine.offerProbe
  split
  · exact h
  · rename_i x hx
    split
    · rename_i hc
      obtain ⟨hstate, hphase, _⟩ := hc
      have hoffer := p.offer s .probe (.probe i s.keeper.nextProbe)
        (segmentOf s.responder.entries x (x.sndNxt - 1)) nofun h
      dsimp only
      split
      · refine p.nextProbe _ (s.keeper.nextProbe + 1)
          (p.session _ i (fun x => { x with phase := .queued, probeId := s.keeper.nextProbe }) ?_ hoffer)
        intro y hy hok
        rw [(offerTx_keeps _ _ _ _).2.2.2.2.2.1, hx] at hy
        cases hy
        simp_all [SessionOk]
      · exact hoffer
    · exact h

theorem Ordinary.keeperOffers (p : Ordinary P) (s : State) (h : P s) : P (keeperOffers s) :=
  foldl_pres P _ (fun s i => p.offerProbe s i) _ s h

theorem Ordinary.beginRound (p : Ordinary P) (s : State) (i : Nat) (h : P s) : P (beginRound i s) :=
  p.offerProbe _ i (p.session s i _ (fun _ _ _ => by simp [SessionOk]) h)

theorem Ordinary.beginDueRounds (p : Ordinary P) (s : State) (h : P s) : P (beginDueRounds s) :=
  foldl_pres P _ (fun s i => p.beginRound s i) _ s h

theorem Ordinary.offerList (p : Ordinary P) (l : List Nat) (s : State) (h : P s) : P (offerList l s) := by
  induction l generalizing s with
  | nil => exact p.listed s [] h
  | cons i l ih =>
    unfold Machine.offerList
    split
    · exact ih s h
    · dsimp only
      split
      · refine ih _ (p.offer s _ _ _ ?_ h)
        intro build entry howner
        cases howner
        exact le_rfl
      · exact p.listed s _ h

theorem Ordinary.offerListNow (p : Ordinary P) (s : State) (h : P s) : P (offerListNow s) := by
  unfold Machine.offerListNow
  split
  · exact p.offerList _ s h
  · exact h

theorem Ordinary.offerDefence (p : Ordinary P) (s : State) (i : Nat) (h : P s) : P (offerDefence i s) := by
  unfold Machine.offerDefence
  split
  · exact h
  · split
    · exact p.entry _ _ _ (p.offer s _ _ _ nofun h)
    · exact h

theorem Ordinary.offerDueReport (p : Ordinary P) (s : State) (i : Nat) (h : P s) : P (offerDueReport i s) := by
  unfold Machine.offerDueReport
  split
  · exact h
  · split
    · exact h
    · split
      · exact p.entry _ _ _ (p.offer s _ _ _ nofun h)
      · exact h

theorem Ordinary.responderOffers (p : Ordinary P) (s : State) (h : P s) : P (responderOffers s) :=
  p.offerList _ _ (foldl_pres P _ (fun s i => p.offerDueReport s i) _ _
    (foldl_pres P _ (fun s i => p.offerDefence s i) _ s h))

theorem Ordinary.invite (p : Ordinary P) (s : State) (h : P s) : P (invite s) := by
  unfold Machine.invite
  split
  · split
    · have hoffers := p.keeperOffers _ (p.responderOffers s h)
      dsimp only
      split
      · exact p.turn _ _ hoffers
      · exact hoffers
    · have hoffers := p.responderOffers _ (p.keeperOffers s h)
      dsimp only
      split
      · exact p.turn _ _ hoffers
      · exact hoffers
  · exact h

/-! The station link. -/

theorem Ordinary.takeRxFrame (p : Ordinary P) (s : State) (f : List Byte) (h : P s) : P (takeRxFrame f s) := by
  unfold Machine.takeRxFrame
  split
  · exact p.count s _ _ rfl h
  · split
    · rename_i hroom
      exact p.count _ _ _ rfl (p.rxJoined s f hroom h)
    · exact p.sent _ _ (p.count s _ _ rfl h)

theorem Ordinary.tellOwner (p : Ordinary P) (s : State) (owner : TxOwner) (done : Bool) (h : P s) :
    P (tellOwner owner done s) := by
  cases owner with
  | listItem build entry =>
    show P (settleListItem build done s)
    unfold settleListItem
    split
    · exact p.checkArmingEnd _ (p.listSettled s _ _ h)
    · exact h
  | probe i number => exact p.session s i _ (fun x _ hx => sessionOk_settleProbe hx number done s.time) h
  | untold => exact h
  | defence entry => exact h
  | dueReport entry => exact h

theorem Ordinary.settleTx (p : Ordinary P) (s : State) (done : Bool) (h : P s) : P (settleTx done s) := by
  unfold Machine.settleTx
  split
  · exact h
  · rename_i slot rest hq
    exact p.invite _ (p.tellOwner _ slot.owner done (p.count _ _ _ (by cases done <;> rfl) (p.popped s slot rest hq h)))

theorem Ordinary.takeLinkUp (p : Ordinary P) (s : State) (h : P s) : P (takeLinkUp s) := by
  unfold Machine.takeLinkUp
  split
  · exact h
  · unfold raiseLink
    have hlink := p.linkChanged s true .linkUp h
    dsimp only
    split
    · exact p.sending _ (p.invite _ (p.rebuilt _ hlink))
    · exact p.sending _ (p.invite _ hlink)

theorem Ordinary.loseLink (p : Ordinary P) (s : State) (record : LinkRecord) (h : P s) : P (loseLink record s) := by
  have hreport := p.report _ { cause := .link, origin := none, frame := none } (p.linkChanged s false record h)
  unfold Machine.loseLink
  dsimp only
  split
  · rename_i harming
    exact p.endArming _ true harming hreport
  · exact hreport

theorem Ordinary.takeLinkDown (p : Ordinary P) (s : State) (h : P s) : P (takeLinkDown s) := by
  unfold Machine.takeLinkDown
  split
  · exact p.loseLink s _ h
  · exact h

theorem Ordinary.clearPort (p : Ordinary P) (s : State) (h : P s) : P (clearPort s) := by
  have hrefused := p.count s .receiveRefused s.port.rxBuffer.length rfl h
  have hdropped : P (countDropped .ack (countDropped .answer (Machine.count .receiveRefused s.port.rxBuffer.length s))) :=
    p.count _ _ _ rfl (p.count _ _ _ rfl hrefused)
  exact p.deliveriesReset _ (p.probesRequeued _ (p.announcementsDropped _ (p.portCleared _ hdropped)))

theorem Ordinary.takePortReset (p : Ordinary P) (s : State) (h : P s) : P (takePortReset s) := by
  have hclear := p.clearPort s h
  unfold Machine.takePortReset
  dsimp only
  split
  · exact p.checkDrained _ (p.sent _ _ (p.loseLink _ _ hclear))
  · exact p.checkDrained _ (p.sent _ _ hclear)

theorem Passage.takeRecord (p : Passage P H Q C) (r : StationIn) (s : State) (h : P s) : Q (takeRecord r s) := by
  cases r with
  | rxFrame f => exact p.done _ (p.takeRxFrame s f h)
  | txDone => exact p.done _ (p.settleTx s true h)
  | txRefused => exact p.done _ (p.settleTx s false h)
  | deliverDone => exact p.delivered s h
  | linkUp => exact p.done _ (p.takeLinkUp s h)
  | linkDown => exact p.done _ (p.takeLinkDown s h)
  | portReset => exact p.done _ (p.takePortReset s h)

/-! The requests. -/

/-- After the blocks are started the reports of the hand-over leave the device in ARMING. -/
theorem reportTwo_startBlocks_standIn (xs ys : List Report) (depth : Depth) (tag : Byte) (s : State) :
    (reportTwo xs ys (startBlocks depth tag s)).controller.standIn = .arming := by
  rw [reportTwo_controller _ _ (show StandIn.arming ≠ .standing by decide)]
  rfl

theorem Ordinary.startStandIn (p : Ordinary P) (s : State) (depth : Depth) (tag : Byte)
    (hst : s.controller.standIn = .attended) (h : P s) : P (startStandIn depth tag s) := by
  have hoffers := p.beginDueRounds _ (p.offerListNow _
    (p.reportTwo (leaseReports (Machine.startBlocks depth tag s).responder.entries)
      (startLossReports (Machine.startBlocks depth tag s).keeper.sessions) _ (p.startBlocks s depth tag hst h)))
  unfold Machine.startStandIn
  dsimp only
  split
  · exact p.checkArmingEnd _ hoffers
  · refine p.endArming _ true ?_ hoffers
    rw [(beginDueRounds_keeps _).2.1, (offerListNow_keeps _).2.1, reportTwo_startBlocks_standIn]

theorem Ordinary.okReply (p : Ordinary P) (s : State) (tag : Byte) (rest : List Byte) (h : P s) : P (okReply tag rest s) :=
  p.reply s tag _ h

/-- An invariant passes through every request that is taken. -/
theorem Passage.request (p : Passage P H Q C) {k : RequestKind} {tag : Byte} {s t : State}
    (e : RequestEffect k tag s t) (h : P s) : Q t := by
  cases e with
  | refused status _ => exact p.done _ (p.reply s tag _ h)
  | reported rest => exact p.done _ (p.okReply s tag rest h)
  | released rest => exact p.done _ (p.okReply _ tag rest (p.release s h))
  | countersCleared => exact p.zeroed _ (p.reply s tag _ h)
  | entryWritten i e => exact p.done _ (p.okReply _ tag _ (p.writeEntry s i e h))
  | ruleInserted rest i r hroom hhits => exact p.done _ (p.okReply _ tag _ (p.insertRule s i r hroom hhits h))
  | ruleRemoved rest i => exact p.done _ (p.okReply _ tag _ (p.removeRule s i h))
  | templateWritten rest i t => exact p.done _ (p.okReply _ tag _ (p.writeTemplate s i t h))
  | sessionPut i x hdue hdeadline hphase =>
    exact p.done _ (p.okReply _ tag _ (p.writeSession s i (some x)
      (fun y hy => Option.some.inj hy ▸ sessionOk_of_idle hdue hdeadline hphase) h))
  | sessionDropped i => exact p.done _ (p.okReply _ tag _ (p.writeSession s i none (fun _ hy => absurd hy (by simp)) h))
  | policySet q hst hmark => exact p.done _ (p.okReply _ tag _ (p.writePolicy s q hst hmark h))
  | cleared hst => exact p.cleared s tag hst h
  | handedOver depth _ hst => exact p.done _ (p.startStandIn s depth tag hst h)
  | takenBack outcome hst => exact p.done _ (p.enterReturning _ _ _ hst (p.okReply s tag _ h))

theorem Ordinary.countJudgement (p : Ordinary P) (s : State) (o : FrameOutcome) (h : P s) : P (countJudgement o s) := by
  cases o
  case short => exact p.count s _ _ rfl h
  case badCheck => exact p.count s _ _ rfl h
  case notTakenBusy => exact p.count s _ _ rfl h
  all_goals exact h

theorem Passage.riseHcs (p : Passage P H Q C) (s : State) (clocked : List Byte) (h : P s) : Q (riseHcs clocked s) := by
  unfold Machine.riseHcs
  split
  · exact p.done _ h
  · split
    · exact p.done _ (p.count _ _ _ rfl (p.previous _ _ (p.unseen s h)))
    · have hjudged := p.countJudgement _ (judgeFrame (busyAfter clocked.length s) clocked)
        (p.previous _ (judgeFrame (busyAfter clocked.length s) clocked) (p.transaction s clocked h))
      unfold takeJudged
      dsimp only
      split
      · split
        · exact p.request (runRequest_effect _ _ _ _) hjudged
        · exact p.done _ hjudged
      · exact p.done _ hjudged

/-! The classification. -/

/-- A filter's step lets the frame go on, or filters it out (R58). -/
theorem filterStep_cases (ok : Bool) (next : ClassStep) (s : State) :
    filterStep ok next s = advance next s ∨ filterStep ok next s = settle .discarded (count .filtered 1 s) := by
  cases ok
  · exact .inr rfl
  · exact .inl rfl

theorem Passage.filterStep (p : Passage P H Q C) (ok : Bool) (next : ClassStep) (s : State) (hc : C) (h : P s) :
    Q (filterStep ok next s) := by
  rcases filterStep_cases ok next s with heq | heq
  · exact heq ▸ p.done _ (p.advance s next h)
  · exact heq ▸ p.settled _ _ hc nofun (p.count s _ _ rfl h)

theorem Passage.answerEntry (p : Passage P H Q C) (i : Nat) (e : IdentityEntry) (answer : List Byte) (s : State)
    (hc : C) (h : P s) : Q (answerEntry i e answer s) := by
  unfold Machine.answerEntry
  dsimp only
  split
  · have hoffer := p.offer _ .answer .untold answer nofun
      (p.touchEntry s i (fun e => { e with budget := e.budget + 1 }) h)
    split
    · exact p.settled _ _ hc nofun (p.raiseAnswers _ i hoffer)
    · exact p.settled _ _ hc nofun hoffer
  · exact p.settled _ _ hc nofun (p.count s _ _ rfl h)

theorem Ordinary.defendEntry (p : Ordinary P) (i : Nat) (e : IdentityEntry) (s : State) (h : P s) :
    P (defendEntry i e s) := by
  have htouch := p.touchEntry s i (fun e => { e with lastDefence := some s.time }) h
  unfold Machine.defendEntry
  dsimp only
  split
  · exact p.offer _ _ _ _ nofun htouch
  · split
    · exact p.touchEntry _ _ _ htouch
    · exact htouch

theorem Passage.takeConflict (p : Passage P H Q C) (i : Nat) (e : IdentityEntry) (f : List Byte) (s : State)
    (hc : C) (h : P s) : Q (takeConflict i e f s) := by
  have hreport := p.report _ { cause := .conflict, origin := some i, frame := some f }
    (p.count _ .conflicts 1 rfl (p.touchEntry s i (fun e => { e with conflicts := satAdd 255 e.conflicts 1 }) h))
  unfold Machine.takeConflict
  dsimp only
  split
  · exact p.settled _ _ hc nofun (p.defendEntry i e _ hreport)
  · exact p.settled _ _ hc nofun (p.cedeEntry _ i hreport)

theorem Passage.takeQuery (p : Passage P H Q C) (kind : EntryKind) (vlan : Nat) (group : Addr) (t : Nat)
    (form : ReportForm) (s : State) (hc : C) (h : P s) : Q (takeQuery kind vlan group t form s) := by
  unfold Machine.takeQuery
  split
  · exact p.settled _ _ hc nofun (foldl_pres P _ (fun s q => p.touchEntry s _ _) _ s h)
  · exact p.settled _ _ hc nofun h

theorem Passage.takeResponderFrame (p : Passage P H Q C) (kind : ResponderKind) (f : List Byte) (s : State) (hc : C) (h : P s) :
    Q (takeResponderFrame kind f s) := by
  have hdiscard := p.settled s .discarded hc nofun h
  unfold Machine.takeResponderFrame
  split
  · unfold takeArp
    dsimp only
    split
    · split
      · exact p.takeConflict _ _ _ s hc h
      · split
        · exact p.answerEntry _ _ _ s hc h
        · exact hdiscard
    · exact hdiscard
  · unfold takeSolicitation
    dsimp only
    split
    · split
      · exact p.answerEntry _ _ _ s hc h
      · exact hdiscard
    · exact hdiscard
  · unfold takeAdvertisement
    split
    · split
      · exact p.takeConflict _ _ _ s hc h
      · exact hdiscard
    · exact hdiscard
  · unfold takeIgmpQuery
    split
    · exact p.takeQuery _ _ _ _ _ s hc h
    · exact hdiscard
  · unfold takeMldQuery
    split
    · exact p.takeQuery _ _ _ _ _ s hc h
    · exact hdiscard
  · exact hdiscard

theorem Passage.holdFor (p : Passage P H Q C) (source : HoldSource) (own : List Report) (f : List Byte) (s : State)
    (hc : C) (h : P s) : Q (holdFor source own f s) :=
  p.heldSettled _ _ hc (p.heldReportTwo _ _ _ _ (p.hold s f source false h))

theorem Passage.offerAnswer (p : Passage P H Q C) (answer : List Byte) (s : State) (hc : C) (h : P s) :
    Q (offerAnswer answer s) :=
  p.settled _ _ hc nofun (p.offer _ _ _ _ nofun h)

theorem Passage.runAction (p : Passage P H Q C) (a : RuleAction) (n : Nat) (f : List Byte) (s : State) (hc : C) (h : P s) :
    Q (runAction a n f s) := by
  cases a with
  | discard => exact p.settled _ _ hc nofun h
  | hold => exact p.holdFor _ _ _ s hc h
  | wake => exact p.settled _ _ hc nofun (p.report _ _ h)
  | holdWake => exact p.holdFor _ _ _ s hc h
  | echo =>
    show Q (runEcho f s)
    unfold runEcho
    split
    · exact p.offerAnswer _ s hc h
    · exact p.settled _ _ hc nofun h
  | template t =>
    show Q (runTemplate t f s)
    unfold runTemplate
    split
    · exact p.settled _ _ hc nofun h
    · split
      · exact p.offerAnswer _ _ hc (p.touchTemplate _ _ _ h)
      · exact p.settled _ _ hc nofun (p.count _ _ _ rfl (p.touchTemplate _ _ _ h))

theorem firstMatch_mem {entries : List (Option IdentityEntry)} {rules : List (Rule × Option Nat)} {f : List Byte}
    {m : (Rule × Option Nat) × Nat} (h : firstMatch entries rules f = some m) : m.1 ∈ rules :=
  List.fst_mem_of_mem_zipIdx (List.mem_of_find?_eq_some h)

theorem Passage.stepRule (p : Passage P H Q C) (c : Classification) (s : State) (hc : C) (h : P s) : Q (stepRule c s) := by
  unfold Machine.stepRule
  split
  · rename_i m hm
    unfold runRule
    split
    · rename_i hhits
      exact p.runAction _ _ _ _ hc (p.hit s m.1.1 m.1.2 h hhits (firstMatch_mem hm))
    · exact p.runAction _ _ _ _ hc (p.overflow s _ h)
  · exact p.done _ (p.advance s _ h)

theorem Passage.takeSegment (p : Passage P H Q C) (i : Nat) (x : Session) (f : List Byte) (s : State) (hc : C) (h : P s) :
    Q (takeSegment i x f s) := by
  have hheld := p.hold s f (.session i) true h
  unfold Machine.takeSegment
  dsimp only
  split
  · exact p.settled _ _ hc nofun (p.touchSession _ _ _ (fun _ hy => sessionOk_onPeerAck hy _) h)
  · exact p.settled _ _ hc nofun (p.touchSession _ _ _ (fun _ hy => sessionOk_onPeerProbe hy _ _) (p.offer _ _ _ _ nofun h))
  · exact p.heldSettled _ _ hc (p.heldReportTwo _ _ _ _ (p.heldTouch _ _ _ _ (fun _ hy => sessionOk_onData hy _ _) hheld))
  · exact p.heldSettled _ _ hc (p.heldReportTwo _ _ _ _ (p.heldTouch _ _ _ _ (fun y _ => sessionOk_onEnd y _) hheld))
  · exact p.heldSettled _ _ hc (p.heldReportTwo _ _ _ _ (p.heldTouch _ _ _ _ (fun y _ => sessionOk_onEnd y _) hheld))
  · exact p.settled _ _ hc nofun (p.touchSession _ _ _ (fun _ hy => sessionOk_of_eq rfl rfl rfl rfl hy) h)

theorem Passage.takeSegmentReturned (p : Passage P H Q C) (i : Nat) (x : Session) (state : SessionState)
    (f : List Byte) (s : State) (hc : C) (h : P s) : Q (takeSegmentReturned i x state f s) := by
  have hheld := p.hold s f (.session i) true h
  unfold Machine.takeSegmentReturned
  dsimp only
  split
  · exact p.settled _ _ hc nofun (p.touchSession _ _ _ (fun _ hy => sessionOk_of_eq rfl rfl rfl rfl hy) h)
  · exact p.settled _ _ hc nofun (p.touchSession _ _ _ (fun _ hy => sessionOk_of_eq rfl rfl rfl rfl hy) (p.offer _ _ _ _ nofun h))
  · exact p.heldSettled _ _ hc (p.heldReportAll _ _ _ (p.heldTouch _ _ _ _ (fun _ hy => sessionOk_of_eq rfl rfl rfl rfl hy) hheld))
  · exact p.heldSettled _ _ hc (p.heldReportAll _ _ _ (p.heldTouch _ _ _ _ (fun _ hy => sessionOk_of_eq rfl rfl rfl rfl hy) hheld))
  · exact p.heldSettled _ _ hc (p.heldReportAll _ _ _ (p.heldTouch _ _ _ _ (fun _ hy => sessionOk_of_eq rfl rfl rfl rfl hy) hheld))
  · exact p.settled _ _ hc nofun (p.touchSession _ _ _ (fun _ hy => sessionOk_of_eq rfl rfl rfl rfl hy) h)

/-- An invariant that passes through what the classification's steps are made of passes through each of them. -/
theorem Passage.classify (p : Passage P H Q C) (c : Classification) (s : State) (hc : C) (h : P s) :
    Q (classStep c.step c s) := by
  cases c.step with
  | length => exact p.filterStep _ _ s hc h
  | vlan => exact p.filterStep _ _ s hc h
  | destination => exact p.filterStep _ _ s hc h
  | session =>
    show Q (stepSession c s)
    unfold stepSession
    split
    · split
      · exact p.takeSegmentReturned _ _ _ _ s hc h
      · exact p.done _ (p.advance s _ h)
    · split
      · exact p.takeSegment _ _ _ s hc h
      · exact p.done _ (p.advance s _ h)
  | responder =>
    show Q (stepResponder c s)
    unfold stepResponder
    split
    · exact p.takeResponderFrame _ _ s hc h
    · exact p.done _ (p.advance s _ h)
  | rule => exact p.stepRule c s hc h
  | default =>
    show Q (stepDefault c s)
    unfold stepDefault
    split
    · exact p.settled _ _ hc nofun h
    · exact p.holdFor _ _ _ s hc h

/-! The timers. -/

theorem Ordinary.takePeriod (p : Ordinary P) (s : State) (c : PeriodClass) (h : P s) : P (takePeriod c s) := by
  unfold Machine.takePeriod
  split
  · exact p.period s c h
  · exact h

theorem Ordinary.takeMargin (p : Ordinary P) (s : State) (i : Nat) (h : P s) : P (takeMargin i s) := by
  unfold Machine.takeMargin
  split
  · split
    · exact p.report _ _ (p.entry s _ _ h)
    · exact h
  · exact h

theorem Ordinary.takeLeaseDeadline (p : Ordinary P) (s : State) (i : Nat) (h : P s) : P (takeLeaseDeadline i s) := by
  unfold Machine.takeLeaseDeadline
  split
  · split
    · unfold expireEntry
      dsimp only
      split
      · exact p.leaveActive _ _ (p.entry s _ _ h)
      · exact p.entry s _ _ h
    · exact h
  · exact h

theorem Ordinary.takeReportDeadline (p : Ordinary P) (s : State) (i : Nat) (h : P s) : P (takeReportDeadline i s) := by
  unfold Machine.takeReportDeadline
  split
  · split
    · unfold reportDue
      split
      · exact p.entry _ _ _ (p.offer s _ _ _ nofun h)
      · exact p.entry s _ _ h
    · exact h
  · exact h

theorem Ordinary.takeDue (p : Ordinary P) (s : State) (i : Nat) (h : P s) : P (takeDue i s) := by
  unfold Machine.takeDue
  split
  · split
    · exact p.beginRound s i h
    · exact h
  · exact h

/-- A record whose probe timer has come is PROBING (R99). -/
theorem probing_of_probeReady {x : Session} {s : State} (h : probeReady x s = true) : x.state = .probing := by
  simp only [probeReady, Session.probeTimerReached, Bool.and_eq_true] at h
  obtain ⟨_, h⟩ := h
  split at h
  · simp only [Bool.and_eq_true, beq_iff_eq] at h
    exact h.1.1
  · cases h

/-- A PROBING record whose probe is made PENDING is in order. -/
theorem sessionOk_pending {x : Session} (hstate : x.state = .probing) (h : SessionOk x) (n : Nat) :
    SessionOk { x with deadline := none, outstanding := n, phase := .pending } := by
  simp_all [SessionOk]

theorem Ordinary.takeProbeTimer (p : Ordinary P) (s : State) (i : Nat) (h : P s) : P (takeProbeTimer i s) := by
  unfold Machine.takeProbeTimer
  split
  · rename_i x hx
    split
    · rename_i hready
      have hstate := probing_of_probeReady hready
      have hpending : ∀ y, lookup s.keeper.sessions i = some y → y.state = .probing := by
        intro y hy
        rw [hx] at hy
        exact Option.some.inj hy ▸ hstate
      split
      · unfold probeTimeout
        split
        · exact p.offerProbe _ i (p.session s i _ (fun y hy hok => sessionOk_pending (hpending y hy) hok _) h)
        · exact p.loseSession s i h
      · exact p.session s i _ (fun y hy hok => sessionOk_pending (hpending y hy) hok y.outstanding) h
    · exact h
  · exact h

theorem Ordinary.takeClaim (p : Ordinary P) (s : State) (h : P s) : P (takeClaim s) := by
  unfold Machine.takeClaim
  split
  · rename_i hready
    simp only [claimReady, Bool.and_eq_true, Bool.or_eq_true, beq_iff_eq] at hready
    exact p.enterReturning s _ _ hready.1.1 h
  · exact h

/-! Every step. -/

theorem Passage.stepParts (p : Passage P H Q C) : StepParts (fun s t => P s → Q t) where
  same s h := p.done s h
  queue s _ l h hs := h (p.idle s s.time l s.freeCount hs)
  idle s _ _ _ h := p.done _ (p.idle s _ _ _ h)
  reset s a b := p.reset s a b
  lineChange s high h := p.done _ (p.lineChange s high h)
  rise s h := p.done _ (p.rise s h)
  fall := p.fall
  hcsFall s h := p.done _ (p.hcsFall s h)
  hcsRise := p.riseHcs
  busy s h := p.done _ (p.count _ _ _ rfl (p.previous s _ h))
  request s k tag body h := p.request (runRequest_effect k tag body _) (p.previous s _ h)
  statusClear s tag h := p.request (.countersCleared (k := .status) (tag := tag)) (p.previous s _ h)
  record s r := p.takeRecord r s
  recordError s h := p.done _ (p.count s _ _ rfl h)
  frame := p.frame
  classify s c hcurrent h := p.classify c s (p.classified s c hcurrent h) h
  period s c h := p.done _ (p.takePeriod s c h)
  margin s i h := p.done _ (p.takeMargin s i h)
  lease s i h := p.done _ (p.takeLeaseDeadline s i h)
  report s i h := p.done _ (p.takeReportDeadline s i h)
  due s i h := p.done _ (p.takeDue s i h)
  probe s i h := p.done _ (p.takeProbeTimer s i h)
  response s h := p.done _ (p.response s h)
  gap s h := p.done _ (p.gap s h)
  claim s h := p.done _ (p.takeClaim s h)

/-- A property that the commands' operations pass through leads over every step. -/
theorem Passage.step (p : Passage P H Q C) (s t : State) (hs : P s) (h : step s = .next t) : Q t := p.stepParts.step h hs

/-! The invariants. -/

/-- What keeps an invariant at every step: the ordinary operations keep it, and the others too. -/
structure Kept (P : State → Prop) : Prop extends Ordinary P where
  counts : ∀ s c n, P s → P (Machine.count c n s)
  reset : ∀ s a b, P (fullReset a b s)
  fall : ∀ s, P s → P (takeFall s)
  zeroed : ∀ s, P s → P { s with counters := zeroCounters }
  clearTables : ∀ s, s.controller.standIn = .attended → P s → P (clearTables s)
  rxTaken : ∀ s f rest, s.port.rxBuffer = f :: rest → P s → P { s with port := { s.port with rxBuffer := rest } }
  deliverDone : ∀ s, P s → P (takeDeliverDone s)
  accepted : ∀ s f source kept, P s → P (requestHold f source kept s).state
  current : ∀ s c, P s → P { s with classifier := { s.classifier with current := c } }

theorem Kept.settle (p : Kept P) (s : State) (d : Disposition) (h : P s) : P (settle d s) :=
  p.checkDrained _ (p.current _ none (p.counts s _ _ h))

theorem Kept.dequeueFrame (p : Kept P) (s : State) (f : List Byte) (rest : List (List Byte))
    (hbuffer : s.port.rxBuffer = f :: rest) (h : P s) : P (dequeueFrame rest s) :=
  p.sent _ _ (p.counts _ _ _ (p.rxTaken s f rest hbuffer h))

theorem Kept.takeFrame (p : Kept P) (s : State) (h : P s) : P (takeFrame s) := by
  unfold Machine.takeFrame
  split
  · rename_i f rest _ hbuffer
    have hdequeued := p.dequeueFrame s f rest hbuffer h
    split
    case h_1 => exact p.settle _ _ hdequeued
    case h_5 => exact p.settle _ _ (p.accepted _ _ _ _ hdequeued)
    all_goals exact p.current _ _ hdequeued
  · exact h

/-- An invariant passes through every step, in every part of a command. -/
theorem Kept.passage (p : Kept P) : Passage P (fun _ => P) P True where
  toOrdinary := p.toOrdinary
  hold := p.accepted
  heldReport s _ := p.report s
  heldFree s _ n := p.free s n
  heldSession s _ i f hf := p.session s i f (fun x _ => hf x)
  classified _ _ _ _ := trivial
  heldSettled s _ _ := p.settle s _
  settled s d _ _ := p.settle s d
  done _ := id
  reset s a b _ := p.reset s a b
  zeroed := p.zeroed
  cleared s tag hst h := p.okReply _ tag _ (p.clearTables s hst h)
  fall := p.fall
  delivered s h := p.checkDrained _ (p.sending _ (p.deliverDone s h))
  frame := p.takeFrame

/-- An invariant that the commands' operations keep is kept by every step. -/
theorem Kept.step (p : Kept P) (s t : State) (hs : P s) (h : step s = .next t) : P t := p.passage.step s t hs h

end Sys2Proof.Proofs
end

section
/-! PROOFS. The outputs agree with the state at every step (R2, R172, R142 to R148). -/

namespace Sys2Proof.Proofs

open Sys2Proof Sys2Proof.Machine

/-- What leaves the controller, the wake unit and the host port as they were keeps the outputs' invariant. -/
theorem pinsOk_of_keeps {s t : State} (hc : t.controller = s.controller) (hw : t.wake = s.wake) (hh : t.host = s.host)
    (h : PinsOk s) : PinsOk t :=
  PinsOk_of_eq hc hw (by rw [hh]) (by rw [hh]) (by rw [hh]) h

theorem queueNotice_pins (n : Notice) (s : State) (h : PinsOk s) : PinsOk (queueNotice n s) := by
  obtain ⟨hcontroller, hattn, hphase, hcalling⟩ := h
  refine ⟨?_, queueNotice_attn n s hattn, ?_, ?_⟩
  · simpa [ControllerOk] using hcontroller
  · simpa using hphase
  · simpa using hcalling

theorem fullReset_pins (s : State) (a b : Bool) : PinsOk (fullReset a b s) := by
  refine ⟨⟨rfl, rfl⟩, rfl, ⟨rfl, rfl, rfl, rfl⟩, ?_⟩
  exact (show StandIn.attended ≠ .calling by decide)

theorem moveHostup_pins (s : State) (high : Bool) (h : PinsOk s) : PinsOk (moveHostup high s) := by
  unfold moveHostup
  split
  · exact h
  · exact h

/-- In phase NONE the filtered level is free to change. -/
theorem filterHostup_pins {s : State} (high : Bool) (h : PinsOk s) (hphase : s.wake.phase = .none) :
    PinsOk (filterHostup high s) := by
  obtain ⟨hcontroller, hattn, htimers, hcalling⟩ := h
  refine ⟨hcontroller, hattn, htimers, ?_⟩
  unfold CallingOk at *
  simpa [filterHostup, hphase] using hcalling

theorem takeRise_pins (s : State) (h : PinsOk s) : PinsOk (takeRise s) := by
  unfold takeRise
  split
  · rename_i hready
    obtain ⟨hready, hline⟩ := hready
    have hlow : s.wake.hostupFiltered = false := by
      simp only [hostupReady, hline, Bool.and_eq_true, bne_iff_ne, ne_eq] at hready
      simpa using Ne.symm hready.1
    have hcalling := h.2.2.2
    unfold hostupRise
    simp only [(filterHostup_keeps true s).2.1]
    split
    case h_1 hst => exact startClaim_pins _ h.1 h.2.1 (.inl hst) rfl
    case h_2 hst =>
      split
      · exact startClaim_pins _ h.1 h.2.1 (.inr hst) rfl
      · rename_i hphase
        simp only [filterHostup, not_or] at hphase
        unfold CallingOk at hcalling
        split at hcalling <;> simp_all
    all_goals
      rename_i hst
      exact filterHostup_pins true h (h.phase_none (by simp [hst]) (by simp [hst]))
  · exact h

theorem takeFall_pins (s : State) (h : PinsOk s) : PinsOk (takeFall s) := by
  unfold takeFall
  split
  · rename_i hready
    obtain ⟨hready, hline⟩ := hready
    have hhigh : s.wake.hostupFiltered = true := by
      simp only [hostupReady, hline, Bool.and_eq_true, bne_iff_ne, ne_eq] at hready
      simpa using Ne.symm hready.1
    have hcalling := h.2.2.2
    unfold hostupFall
    simp only [(filterHostup_keeps false s).2.1]
    split
    case h_1 hst =>
      split
      · obtain ⟨hcontroller, hattn, htimers, _⟩ := h
        refine ⟨hcontroller, hattn, ?_, ?_⟩
        · simp_all [PhaseOk, stopClaim, filterHostup]
        · simp [CallingOk, stopClaim, filterHostup, hst]
      · rename_i hphase
        refine filterHostup_pins false h ?_
        simp only [filterHostup] at hphase
        unfold CallingOk at hcalling
        split at hcalling <;> simp_all
    case h_2 hst =>
      split
      · exact startAttempt_pins _ h.1 h.2.1 hst rfl
      · rename_i hphase
        simp only [filterHostup] at hphase
        unfold CallingOk at hcalling
        split at hcalling <;> simp_all
    case h_3 hst =>
      exact cutReturn_pins _ (filterHostup_pins false h (h.phase_none (by simp [hst]) (by simp [hst]))) hst
    all_goals
      rename_i hst
      exact filterHostup_pins false h (h.phase_none (by simp [hst]) (by simp [hst]))
  · exact h

/-- In CALLING and phase ASSERTING or GAP the filtered HOSTUP level is low. -/
theorem hostup_low_of_asserting_or_gap {s : State} (h : PinsOk s)
    (hphase : s.wake.phase = .asserting ∨ s.wake.phase = .gap) : s.wake.hostupFiltered = false := by
  have hcalling := h.2.2.2
  unfold CallingOk at hcalling
  rcases hphase with hphase | hphase <;> simp_all

theorem takeResponse_pins (s : State) (h : PinsOk s) : PinsOk (takeResponse s) := by
  unfold takeResponse
  split
  · rename_i hready
    simp only [responseReady, Bool.and_eq_true, beq_iff_eq] at hready
    obtain ⟨⟨hst, hphase⟩, _⟩ := hready
    have hlow := hostup_low_of_asserting_or_gap h (.inl hphase)
    obtain ⟨hcontroller, hattn, htimers, _⟩ := h
    refine ⟨hcontroller, hattn, ?_, ?_⟩
    · simp_all [PhaseOk, startGap, startTimer]
    · simp_all [CallingOk, startGap]
  · exact h

theorem takeGap_pins (s : State) (h : PinsOk s) : PinsOk (takeGap s) := by
  unfold takeGap
  split
  · rename_i hready
    simp only [gapReady, Bool.and_eq_true, beq_iff_eq] at hready
    obtain ⟨⟨hst, hphase⟩, _⟩ := hready
    have hlow := hostup_low_of_asserting_or_gap h (.inr hphase)
    have hdrain := h.drain_false (by simp [hst])
    obtain ⟨hcontroller, hattn, htimers, _⟩ := h
    unfold endGap
    split
    · exact startAttempt_pins s hcontroller hattn hst hlow
    · refine ⟨⟨rfl, ?_⟩, changeState_attn _ _ _ hattn, ?_, ?_⟩
      · rw [giveUp, changeState_drain]
        exact hdrain
      · simp_all [PhaseOk, giveUp]
      · simp [CallingOk, giveUp]
  · exact h

theorem fallHcs_pins (s : State) (h : PinsOk s) : PinsOk (fallHcs s) := by
  unfold fallHcs
  split
  · exact h
  · exact PinsOk_of_eq (s := s) rfl rfl rfl rfl rfl h

/-- The release of the frame out leaves ATTN at the level of the port's contents (R172). -/
theorem releaseFrame_attn (n : Nat) (h : HostPort) (hattn : h.attn = attnLevel h) :
    (releaseFrame n h).attn = attnLevel (releaseFrame n h) := by
  unfold releaseFrame
  split
  · exact hattn
  · split
    · rfl
    · exact hattn

theorem endTransaction_pins (s : State) (clocked : List Byte) (h : PinsOk s) : PinsOk (endTransaction clocked s) := by
  obtain ⟨hcontroller, hattn, htimers, hcalling⟩ := h
  exact ⟨hcontroller, releaseFrame_attn _ s.host hattn, htimers, hcalling⟩

theorem produceReply_pins (s : State) (tag : Byte) (body : List Byte) (h : PinsOk s) :
    PinsOk (produceReply tag body s) := by
  obtain ⟨hcontroller, _, htimers, hcalling⟩ := h
  exact ⟨hcontroller, produceReply_attn tag body s, htimers, hcalling⟩

/-- The hand-over leaves the calling sequence at rest (R7). -/
theorem startBlocks_pins (s : State) (depth : Depth) (tag : Byte) (hst : s.controller.standIn = .attended)
    (h : PinsOk s) : PinsOk (startBlocks depth tag s) := by
  have hphase := h.phase_none (by simp [hst]) (by simp [hst])
  have hchanged : PinsOk (changeState .arming .handedOver s) :=
    changeState_pins _ _ _ h (h.drain_false (by simp [hst])) (by simp [CallingOk, hphase])
  obtain ⟨hcontroller, hattn, _, _⟩ := hchanged
  refine ⟨hcontroller, hattn, ⟨rfl, rfl, rfl, rfl⟩, ?_⟩
  exact (show StandIn.arming ≠ .calling by decide)

/-- The operations that the commands are made of keep the outputs in agreement with the state. -/
theorem kept_pinsOk : Kept PinsOk where
  idle _ _ _ _ h := h
  reset := fullReset_pins
  lineChange := moveHostup_pins
  rise := takeRise_pins
  fall := takeFall_pins
  response := takeResponse_pins
  gap := takeGap_pins
  hcsFall := fallHcs_pins
  transaction := endTransaction_pins
  unseen _ h := h
  previous _ _ h := h
  count _ _ _ _ h := h
  counts _ _ _ h := h
  zeroed _ h := h
  reply := produceReply_pins
  release _ h := h
  writeEntry _ _ _ h := h
  insertRule _ _ _ _ _ h := h
  removeRule _ _ h := h
  writeTemplate _ _ _ h := h
  writeSession _ _ _ _ h := h
  writePolicy _ _ _ _ h := h
  clearTables _ _ h := h
  startBlocks := startBlocks_pins
  endArming s linkDown hst h := endArming_pins linkDown s h hst
  enterReturning s reason outcome _ h := enterReturning_pins reason outcome s h
  checkDrained := checkDrained_pins
  report s r h := reportCause_pins r s h
  offer _ _ _ _ _ h := pinsOk_of_keeps (by simp) (by simp) (by simp) h
  turn _ _ h := h
  popped _ _ _ _ h := h
  listSettled _ _ _ h := h
  listed _ _ h := h
  entry _ _ _ h := h
  session _ _ _ _ h := h
  nextProbe _ _ h := h
  template _ _ _ h := h
  rebuilt _ h := h
  linkChanged _ _ _ h := queueNotice_pins _ _ h
  sent _ _ h := h
  rxJoined _ _ _ h := h
  rxTaken _ _ _ _ h := h
  portCleared _ h := h
  announcementsDropped _ h := h
  probesRequeued _ h := pinsOk_of_keeps (by simp) (by simp) (by simp) h
  deliveriesReset _ h := h
  deliverDone _ h := pinsOk_of_keeps (by simp) (by simp) (by simp) h
  sending _ h := pinsOk_of_keeps (by simp) (by simp) (by simp) h
  accepted _ _ _ _ h := pinsOk_of_keeps (by simp) (by simp) (by simp) h
  current _ _ h := h
  advance _ _ h := h
  hit _ _ _ h _ _ := pinsOk_of_keeps (by simp) (by simp) (by simp) h
  overflow _ _ h := pinsOk_of_keeps (by simp) (by simp) (by simp) h
  period _ _ h := pinsOk_of_keeps (by simp) (by simp) (by simp) h

/-- Settles O5: every operation that a command is made of keeps the outputs in agreement with the state. -/
theorem stepKeepsOutputs : Obligations.StepKeepsOutputs := kept_pinsOk.step

end Sys2Proof.Proofs
end

section
/-! PROOFS. The hold queue stays within its bounds at every step (R4, R118, R119, R122, R125): first the queue's own
operations, then what moves the stand-in state, then the invariant. -/

namespace Sys2Proof.Proofs

open Sys2Proof Sys2Proof.Machine

/-! The queue. -/

@[simp] theorem bytesOf_nil : bytesOf [] = 0 := rfl

@[simp] theorem bytesOf_cons (h : HeldFrame) (q : List HeldFrame) :
    bytesOf (h :: q) = h.bytes.length + bytesOf q := rfl

@[simp] theorem bytesOf_append (q r : List HeldFrame) : bytesOf (q ++ r) = bytesOf q + bytesOf r := by
  simp [bytesOf]

@[simp] theorem inFlightCount_nil : inFlightCount [] = 0 := rfl

theorem inFlightCount_cons (h : HeldFrame) (q : List HeldFrame) :
    inFlightCount (h :: q) = (if h.delivery = .inFlight then 1 else 0) + inFlightCount q := by
  by_cases hd : h.delivery = .inFlight
  · simp [inFlightCount, hd, Nat.add_comm]
  · simp [inFlightCount, hd]

@[simp] theorem inFlightCount_append (q r : List HeldFrame) :
    inFlightCount (q ++ r) = inFlightCount q + inFlightCount r := by
  simp [inFlightCount]

theorem inFlightCount_le_of_sublist {q r : List HeldFrame} (h : q.Sublist r) : inFlightCount q ≤ inFlightCount r :=
  (h.filter _).length_le

theorem bytesOf_le_of_sublist {q r : List HeldFrame} (h : q.Sublist r) : bytesOf q ≤ bytesOf r :=
  (h.map (fun x : HeldFrame => x.bytes.length)).sum_le_sum (by simp)

theorem dropUnkept_sublist (m : Nat) (q : List HeldFrame) : (dropUnkept m q).Sublist q := by
  induction q generalizing m with
  | nil => cases m <;> simp [dropUnkept]
  | cons h q ih =>
    cases m with
    | zero => simp [dropUnkept]
    | succ m =>
      unfold dropUnkept
      split
      · exact (ih _).cons_cons h
      · exact (ih m).cons h

theorem removeInFlight_sublist (q : List HeldFrame) : (removeInFlight q).Sublist q := by
  induction q with
  | nil => exact .slnil
  | cons h q ih =>
    unfold removeInFlight
    split
    · exact List.sublist_cons_self h q
    · exact ih.cons_cons h

@[simp] theorem markInFlight_length (n : Nat) (q : List HeldFrame) : (markInFlight n q).length = q.length := by
  induction q generalizing n with
  | nil => cases n <;> rfl
  | cons h q ih =>
    cases n with
    | zero => rfl
    | succ n =>
      unfold markInFlight
      split <;> simp [ih]

@[simp] theorem bytesOf_markInFlight (n : Nat) (q : List HeldFrame) : bytesOf (markInFlight n q) = bytesOf q := by
  induction q generalizing n with
  | nil => cases n <;> rfl
  | cons h q ih =>
    cases n with
    | zero => rfl
    | succ n =>
      unfold markInFlight
      split <;> simp [ih]

theorem inFlightCount_markInFlight_le (n : Nat) (q : List HeldFrame) :
    inFlightCount (markInFlight n q) ≤ inFlightCount q + n := by
  induction q generalizing n with
  | nil => cases n <;> simp [markInFlight]
  | cons h q ih =>
    cases n with
    | zero => rfl
    | succ n =>
      unfold markInFlight
      split
      · rename_i hwaiting
        have := ih n
        simp only [inFlightCount_cons, if_true, hwaiting]
        omega
      · have := ih (n + 1)
        simp only [inFlightCount_cons]
        omega

/-- The level flag reads the bytes of a queue only. -/
theorem levelOf_congr {mark : Nat} {q r : List HeldFrame} (h : bytesOf q = bytesOf r) :
    levelOf mark q = levelOf mark r := by
  simp [levelOf, h]

/-- An empty queue is below any high mark that the policy admits. -/
theorem levelOf_nil {mark : Nat} (h : 25 ≤ mark) : levelOf mark [] = .below := by
  have : ¬ highMarkBytes mark ≤ 0 := by
    unfold highMarkBytes
    omega
  simp [levelOf, this]

@[simp] theorem bytesOf_map_waiting (q : List HeldFrame) :
    bytesOf (q.map (fun h => { h with delivery := .waiting })) = bytesOf q := by
  induction q with
  | nil => rfl
  | cons h q ih => simp [ih]

@[simp] theorem inFlightCount_map_waiting (q : List HeldFrame) :
    inFlightCount (q.map (fun h => { h with delivery := .waiting })) = 0 := by
  simp [inFlightCount]

/-- A hold is accepted where its frame fits beside what is left of the queue, and never in ATTENDED. -/
theorem fits_of_holdDecision {s : State} {len m : Nat} (h : holdDecision s len = some m) :
    s.controller.standIn ≠ .attended ∧ fits (dropUnkept m s.hold.queue) len = true := by
  unfold holdDecision at h
  split at h
  · cases h
  · rename_i hattended
    refine ⟨hattended, ?_⟩
    split at h
    · exact List.find?_some (p := fun m => fits (dropUnkept m s.hold.queue) len) h
    · split at h
      · rename_i hfits
        cases h
        simpa [dropUnkept] using hfits
      · cases h

/-! What moves the stand-in state. -/

@[simp] theorem enterCalling_standIn (s : State) : (enterCalling s).controller.standIn = .calling := by
  simp [enterCalling, beginCalling_keeps]

@[simp] theorem startAttempt_policy (s : State) : (startAttempt s).wake.policy = s.wake.policy := rfl

@[simp] theorem startClaim_policy (s : State) : (startClaim s).wake.policy = s.wake.policy := rfl

@[simp] theorem beginCalling_policy (s : State) : (beginCalling s).wake.policy = s.wake.policy := by
  unfold beginCalling
  dsimp only
  split
  · split <;> rfl
  · rfl

@[simp] theorem enterCalling_policy (s : State) : (enterCalling s).wake.policy = s.wake.policy := by
  simp [enterCalling]

@[simp] theorem reportCause_policy (r : Report) (s : State) : (reportCause r s).wake.policy = s.wake.policy := by
  have hkept := (recordCause_keeps r s.time s.wake).2.2.2.2.2.2.2.2.1
  unfold reportCause
  split
  · dsimp only
    split
    · rw [enterCalling_policy]
      exact hkept
    · exact hkept
  · rfl

/-- A report leaves the stand-in state, or moves it from STANDING to CALLING (R131). -/
theorem reportCause_standIn (r : Report) (s : State) :
    (reportCause r s).controller.standIn = s.controller.standIn
      ∨ s.controller.standIn = .standing ∧ (reportCause r s).controller.standIn = .calling := by
  unfold reportCause
  split
  · dsimp only
    split
    · rename_i hc
      simp only [Bool.and_eq_true, beq_iff_eq] at hc
      exact .inr ⟨hc.2, enterCalling_standIn _⟩
    · exact .inl rfl
  · exact .inl rfl

@[simp] theorem endArming_policy (linkDown : Bool) (s : State) :
    (endArming linkDown s).wake.policy = s.wake.policy := by
  unfold endArming
  dsimp only
  split <;> simp

/-- Arming ends in STANDING or in CALLING (R10, R11). -/
theorem endArming_standIn (linkDown : Bool) (s : State) :
    (endArming linkDown s).controller.standIn = .standing ∨ (endArming linkDown s).controller.standIn = .calling := by
  unfold endArming
  dsimp only
  split
  · exact .inl rfl
  · exact .inr (enterCalling_standIn _)

/-! The invariant. -/

/-- What leaves the hold buffer and the high mark as they were, and the stand-in state or its bearing on the queue, keeps
the hold queue in its bounds. -/
theorem holdOk_of_eq {s t : State} (hhold : t.hold = s.hold)
    (hmark : t.wake.policy.highMark = s.wake.policy.highMark)
    (hst : t.controller.standIn = s.controller.standIn
      ∨ s.controller.standIn ≠ .returning ∧ t.controller.standIn ≠ .attended) (h : HoldOk s) : HoldOk t := by
  obtain ⟨hlength, hbytes, hdeliveries, hlevel, hmin, hflight, hempty⟩ := h
  unfold HoldOk
  rw [hhold, hmark]
  refine ⟨hlength, hbytes, hdeliveries, hlevel, hmin, ?_, ?_⟩
  · rcases hst with hst | ⟨hreturning, _⟩
    · rwa [hst]
    · exact fun _ => hflight hreturning
  · rcases hst with hst | ⟨_, hattended⟩
    · rwa [hst]
    · exact fun h => absurd h hattended

/-- An empty queue with no delivery of its own is in its bounds in every state. -/
theorem holdOk_of_nil {s : State} (hqueue : s.hold.queue = []) (hforgotten : s.hold.forgotten ≤ 4)
    (hlevel : s.hold.level = .below) (hmark : 25 ≤ s.wake.policy.highMark) : HoldOk s := by
  unfold HoldOk
  rw [hqueue, hlevel, levelOf_nil hmark]
  simp [hmark, hforgotten]

theorem checkDrained_holdOk (s : State) (h : HoldOk s) : HoldOk (checkDrained s) := by
  unfold checkDrained
  split
  · rename_i hdrained
    simp only [drainComplete, Bool.and_eq_true, List.isEmpty_iff] at hdrained
    obtain ⟨⟨⟨_, hqueue⟩, _⟩, _⟩ := hdrained
    obtain ⟨_, _, hdeliveries, hlevel, hmark, _, _⟩ := h
    rw [hqueue, inFlightCount_nil] at hdeliveries
    rw [hqueue, levelOf_nil hmark] at hlevel
    exact holdOk_of_nil (by simpa using hqueue) (by simpa using hdeliveries) (by simpa using hlevel) (by simpa using hmark)
  · exact h

theorem sendingStep_holdOk (s : State) (h : HoldOk s) : HoldOk (sendingStep s) := by
  unfold sendingStep
  split
  · rename_i hc
    obtain ⟨hlength, hbytes, hdeliveries, hlevel, hmark, _, _⟩ := h
    have hflight := inFlightCount_markInFlight_le (sendRoom s) s.hold.queue
    have hroom : sendRoom s = 4 - (inFlightCount s.hold.queue + s.hold.forgotten) := rfl
    refine ⟨by simpa using hlength, by simpa using hbytes, ?_, ?_, hmark, fun hst => absurd hc.1 hst, fun hst => ?_⟩
    · show inFlightCount (markInFlight (sendRoom s) s.hold.queue) + s.hold.forgotten ≤ 4
      omega
    · exact hlevel.trans (levelOf_congr (bytesOf_markInFlight _ _).symm)
    · exact absurd (hst.symm.trans hc.1) (by decide)
  · exact h

theorem takeDeliverDone_holdOk (s : State) (h : HoldOk s) : HoldOk (takeDeliverDone s) := by
  obtain ⟨hlength, hbytes, hdeliveries, hlevel, hmark, hflight, hempty⟩ := h
  unfold takeDeliverDone
  split
  · refine ⟨hlength, hbytes, ?_, hlevel, hmark, hflight, hempty⟩
    show inFlightCount s.hold.queue + (s.hold.forgotten - 1) ≤ 4
    omega
  · split
    · exact ⟨hlength, hbytes, hdeliveries, hlevel, hmark, hflight, hempty⟩
    · have hsub := removeInFlight_sublist s.hold.queue
      have hcount := inFlightCount_le_of_sublist hsub
      refine ⟨hsub.length_le.trans hlength, (bytesOf_le_of_sublist hsub).trans hbytes,
        (Nat.add_le_add_right hcount _).trans hdeliveries, rfl, hmark, fun hst => ?_, fun hst => ?_⟩
      · exact Nat.le_zero.1 (hcount.trans_eq (hflight hst))
      · exact List.sublist_nil.1 (hempty hst ▸ hsub)

theorem acceptHold_holdOk (f : List Byte) (source : HoldSource) (kept : Bool) (m : Nat) (s : State) (h : HoldOk s)
    (hst : s.controller.standIn ≠ .attended) (hfits : fits (dropUnkept m s.hold.queue) f.length = true) :
    HoldOk (acceptHold f source kept m s) := by
  obtain ⟨_, _, hdeliveries, _, hmark, hflight, _⟩ := h
  simp only [fits, Bool.and_eq_true, decide_eq_true_eq] at hfits
  have hcount := inFlightCount_le_of_sublist (dropUnkept_sublist m s.hold.queue)
  have hnew : inFlightCount (dropUnkept m s.hold.queue ++ [heldRecord s f source kept]) =
      inFlightCount (dropUnkept m s.hold.queue) := by
    simp [inFlightCount_cons, heldRecord]
  refine ⟨?_, ?_, ?_, rfl, hmark, fun hreturning => ?_, fun hattended => absurd hattended hst⟩
  · simpa [acceptHold] using hfits.1
  · simpa [acceptHold, heldRecord] using hfits.2
  · show inFlightCount (dropUnkept m s.hold.queue ++ [heldRecord s f source kept]) + s.hold.forgotten ≤ 4
    omega
  · exact hnew.trans (Nat.le_zero.1 (hcount.trans_eq (hflight hreturning)))

theorem requestHold_holdOk (s : State) (f : List Byte) (source : HoldSource) (kept : Bool) (h : HoldOk s) :
    HoldOk (requestHold f source kept s).state := by
  unfold requestHold
  split
  · exact h
  · rename_i m hdecision
    obtain ⟨hst, hfits⟩ := fits_of_holdDecision hdecision
    exact sendingStep_holdOk _ (acceptHold_holdOk f source kept m s h hst hfits)

theorem resetDeliveries_holdOk (s : State) (h : HoldOk s) : HoldOk (resetDeliveries s) := by
  obtain ⟨hlength, hbytes, _, hlevel, hmark, _, hempty⟩ := h
  refine ⟨by simpa [resetDeliveries] using hlength, by simpa [resetDeliveries] using hbytes,
    by simp [resetDeliveries], ?_, hmark, fun _ => by simp [resetDeliveries], fun hst => ?_⟩
  · exact hlevel.trans (levelOf_congr (bytesOf_map_waiting _).symm)
  · simp [resetDeliveries, hempty hst]

theorem cutReturn_holdOk (s : State) (h : HoldOk s) : HoldOk (cutReturn s) := by
  obtain ⟨_, _, hdeliveries, _, hmark, _, _⟩ := h
  have hforgotten : s.hold.forgotten + inFlightCount s.hold.queue ≤ 4 := by omega
  exact holdOk_of_nil (by simp [cutReturn]) (by simpa [cutReturn] using hforgotten) (by simp [cutReturn])
    (by simpa using hmark)

theorem reportCause_holdOk (s : State) (r : Report) (h : HoldOk s) : HoldOk (reportCause r s) := by
  refine holdOk_of_eq (by simp) (by simp) ?_ h
  rcases reportCause_standIn r s with hst | ⟨hstanding, hcalling⟩
  · exact .inl hst
  · exact .inr ⟨by simp [hstanding], by simp [hcalling]⟩

theorem endArming_holdOk (s : State) (linkDown : Bool) (hst : s.controller.standIn = .arming) (h : HoldOk s) :
    HoldOk (endArming linkDown s) := by
  refine holdOk_of_eq (by simp) (by simp) (.inr ⟨by simp [hst], ?_⟩) h
  rcases endArming_standIn linkDown s with hst | hst <;> simp [hst]

theorem enterReturning_holdOk (s : State) (reason : Reason) (outcome : WakeOutcome)
    (hst : s.controller.standIn = .standing ∨ s.controller.standIn = .calling) (h : HoldOk s) :
    HoldOk (enterReturning reason outcome s) := by
  refine checkDrained_holdOk _ (sendingStep_holdOk _ (holdOk_of_eq (by simp) (by simp [freezeWake]) (.inr ⟨?_, ?_⟩) h))
  · rcases hst with hst | hst <;> simp [hst]
  · simp

theorem takeRise_holdOk (s : State) (h : HoldOk s) : HoldOk (takeRise s) := by
  refine holdOk_of_eq (by simp) ?_ (.inl (by simp)) h
  unfold takeRise hostupRise
  (repeat' split) <;> rfl

theorem takeFall_holdOk (s : State) (h : HoldOk s) : HoldOk (takeFall s) := by
  unfold takeFall
  split
  · unfold hostupFall
    split
    case h_3 => exact cutReturn_holdOk _ h
    all_goals (try split) <;> exact h
  · exact h

theorem takeGap_holdOk (s : State) (h : HoldOk s) : HoldOk (takeGap s) := by
  unfold takeGap
  split
  · rename_i hready
    simp only [gapReady, Bool.and_eq_true, beq_iff_eq] at hready
    unfold endGap
    split
    · exact h
    · exact holdOk_of_eq (by simp) (by simp [giveUp]) (.inr ⟨by simp [hready.1.1], by simp [giveUp]⟩) h
  · exact h

/-- The operations that the commands are made of keep the hold queue in its bounds. -/
theorem kept_holdOk : Kept HoldOk where
  idle _ _ _ _ h := h
  reset _ _ _ := holdOk_of_nil rfl (Nat.zero_le 4) rfl (show 25 ≤ defaultPolicy.highMark by decide)
  lineChange _ _ h := by unfold moveHostup; split <;> exact h
  rise := takeRise_holdOk
  fall := takeFall_holdOk
  response _ h := by unfold takeResponse; split <;> exact h
  gap := takeGap_holdOk
  hcsFall _ h := by unfold fallHcs; split <;> exact h
  transaction _ _ h := h
  unseen _ h := h
  previous _ _ h := h
  count _ _ _ _ h := h
  counts _ _ _ h := h
  zeroed _ h := h
  reply _ _ _ h := h
  release _ h := h
  writeEntry _ _ _ h := h
  insertRule _ _ _ _ _ h := h
  removeRule _ _ h := h
  writeTemplate _ _ _ h := h
  writeSession _ _ _ _ h := h
  writePolicy s p hst hmark h := by
    obtain ⟨_, _, hdeliveries, hlevel, hold, _, hempty⟩ := h
    rw [hempty hst, inFlightCount_nil] at hdeliveries
    rw [hempty hst, levelOf_nil hold] at hlevel
    exact holdOk_of_nil (by simpa using hempty hst) (by simpa using hdeliveries) (by simpa using hlevel) hmark
  clearTables s _ h := by
    obtain ⟨_, _, hdeliveries, _, _, _, _⟩ := h
    exact holdOk_of_nil rfl ((Nat.le_add_left _ _).trans hdeliveries) rfl
      (show 25 ≤ defaultPolicy.highMark by decide)
  startBlocks s _ _ hst h :=
    holdOk_of_eq (by simp) (by simp [startBlocks, clearWake]) (.inr ⟨by simp [hst], by simp [startBlocks]⟩) h
  endArming := endArming_holdOk
  enterReturning := enterReturning_holdOk
  checkDrained := checkDrained_holdOk
  report := reportCause_holdOk
  offer _ _ _ _ _ h := holdOk_of_eq (by simp) (by simp) (.inl (by simp)) h
  turn _ _ h := h
  popped _ _ _ _ h := h
  listSettled _ _ _ h := h
  listed _ _ h := h
  entry _ _ _ h := h
  session _ _ _ _ h := h
  nextProbe _ _ h := h
  template _ _ _ h := h
  rebuilt _ h := h
  linkChanged _ _ _ h := holdOk_of_eq (by simp) (by simp) (.inl (by simp)) h
  sent _ _ h := h
  rxJoined _ _ _ h := h
  rxTaken _ _ _ _ h := h
  portCleared _ h := h
  announcementsDropped _ h := h
  probesRequeued _ h := holdOk_of_eq (by simp) (by simp) (.inl (by simp)) h
  deliveriesReset := resetDeliveries_holdOk
  deliverDone := takeDeliverDone_holdOk
  sending := sendingStep_holdOk
  accepted := requestHold_holdOk
  current _ _ h := h
  advance _ _ h := h
  hit _ _ _ h _ _ := holdOk_of_eq (by simp) (by simp) (.inl (by simp)) h
  overflow _ _ h := holdOk_of_eq (by simp) (by simp) (.inl (by simp)) h
  period _ _ h := holdOk_of_eq (by simp) (by simp) (.inl (by simp)) h

/-- Settles O6: every operation that a command is made of keeps the hold queue in its bounds. -/
theorem stepKeepsHoldQueue : Obligations.StepKeepsHoldQueue := kept_holdOk.step

end Sys2Proof.Proofs
end

section
/-! PROOFS. The buffers, the notice queue and every count stay within their bounds at every step (R135, R138, R149, R162,
R171, R180). -/

namespace Sys2Proof.Proofs

open Sys2Proof Sys2Proof.Machine

theorem satAdd_le (bound n k : Nat) : satAdd bound n k ≤ bound := Nat.min_le_left _ _

/-- The bounds read the buffers, the notices, two counts of the wake unit, the counters and the number of the present
list only. -/
theorem queuesOk_of_le {s t : State} (hrx : t.port.rxBuffer.length ≤ s.port.rxBuffer.length)
    (htx : t.port.txQueue = s.port.txQueue) (hnotices : t.host.notices.length ≤ s.host.notices.length)
    (hlost : t.host.lost = s.host.lost) (hattempts : t.wake.record.attempts = s.wake.record.attempts)
    (huncaptured : t.wake.uncaptured = s.wake.uncaptured) (hcounters : t.counters = s.counters)
    (hbuild : s.responder.build ≤ t.responder.build) (h : QueuesOk s) : QueuesOk t := by
  obtain ⟨hrx', htx', hnotices', hlost', hattempts', huncaptured', hcounters', hbuild'⟩ := h
  refine ⟨hrx.trans hrx', htx ▸ htx', hnotices.trans hnotices', hlost ▸ hlost', hattempts ▸ hattempts',
    huncaptured ▸ huncaptured', hcounters ▸ hcounters', fun x hx build entry howner => ?_⟩
  exact (hbuild' x (htx ▸ hx) build entry howner).trans hbuild

theorem queuesOk_of_keeps {s t : State} (hport : t.port = s.port) (hhost : t.host = s.host) (hwake : t.wake = s.wake)
    (hcounters : t.counters = s.counters) (hresponder : t.responder = s.responder) (h : QueuesOk s) : QueuesOk t :=
  queuesOk_of_le (by rw [hport]) (by rw [hport]) (by rw [hhost]) (by rw [hhost]) (by rw [hwake]) (by rw [hwake])
    hcounters (by rw [hresponder]) h

theorem queuesOk_wakeCounts {s : State} (h : QueuesOk s) :
    s.wake.record.attempts ≤ 8 ∧ s.wake.uncaptured ≤ 65535 := by
  obtain ⟨_, _, _, _, hattempts, huncaptured, _, _⟩ := h
  exact ⟨hattempts, huncaptured⟩

/-- A wake unit whose counts are within their ends takes the place of another. -/
theorem queuesOk_withWake {s : State} {w : WakeUnit} (hattempts : w.record.attempts ≤ 8)
    (huncaptured : w.uncaptured ≤ 65535) (h : QueuesOk s) : QueuesOk { s with wake := w } := by
  obtain ⟨hrx, htx, hnotices, hlost, _, _, hcounters, hbuild⟩ := h
  exact ⟨hrx, htx, hnotices, hlost, hattempts, huncaptured, hcounters, hbuild⟩

theorem count_queuesOk (s : State) (c : Counter) (n : Nat) (h : QueuesOk s) : QueuesOk (count c n s) := by
  obtain ⟨hrx, htx, hnotices, hlost, hattempts, huncaptured, hcounters, hbuild⟩ := h
  refine ⟨hrx, htx, hnotices, hlost, hattempts, huncaptured, fun c' => ?_, hbuild⟩
  rw [count_counters, get_add]
  split
  · exact satAdd_le _ _ _
  · exact hcounters c'

theorem queueNotice_queuesOk (n : Notice) (s : State) (h : QueuesOk s) : QueuesOk (queueNotice n s) := by
  obtain ⟨hrx, htx, hnotices, hlost, hattempts, huncaptured, hcounters, hbuild⟩ := h
  unfold queueNotice
  split
  · rename_i hroom
    refine ⟨hrx, htx, ?_, Nat.zero_le _, hattempts, huncaptured, hcounters, hbuild⟩
    simpa using hroom
  · exact ⟨hrx, htx, hnotices, satAdd_le _ _ _, hattempts, huncaptured, hcounters, hbuild⟩

theorem changeState_queuesOk (new : StandIn) (reason : Reason) (s : State) (h : QueuesOk s) :
    QueuesOk (changeState new reason s) :=
  queueNotice_queuesOk (stateNotice s new reason) s h

theorem checkDrained_queuesOk (s : State) (h : QueuesOk s) : QueuesOk (checkDrained s) := by
  unfold checkDrained
  split
  · exact changeState_queuesOk _ _ { s with controller := { s.controller with drain := false } } h
  · exact h

theorem startAttempt_queuesOk (s : State) (h : QueuesOk s) : QueuesOk (startAttempt s) :=
  queuesOk_withWake (satAdd_le _ _ _) (queuesOk_wakeCounts h).2 h

theorem startClaim_queuesOk (s : State) (h : QueuesOk s) : QueuesOk (startClaim s) :=
  queuesOk_withWake (queuesOk_wakeCounts h).1 (queuesOk_wakeCounts h).2 h

theorem beginCalling_queuesOk (s : State) (h : QueuesOk s) : QueuesOk (beginCalling s) := by
  have hzero : QueuesOk { s with wake := { s.wake with record := { s.wake.record with attempts := 0 } } } :=
    queuesOk_withWake (Nat.zero_le _) (queuesOk_wakeCounts h).2 h
  unfold beginCalling
  dsimp only
  split
  · split
    · exact hzero
    · exact startClaim_queuesOk _ hzero
  · exact startAttempt_queuesOk _ hzero

theorem enterCalling_queuesOk (s : State) (h : QueuesOk s) : QueuesOk (enterCalling s) :=
  beginCalling_queuesOk _ (changeState_queuesOk _ _ s h)

/-- A cause reported with the lock set is counted as uncaptured (R135). -/
theorem recordCause_uncaptured (r : Report) (now : Time) (w : WakeUnit) :
    (recordCause r now w).uncaptured = if w.lock then satAdd 65535 w.uncaptured 1 else w.uncaptured := by
  unfold recordCause capture
  dsimp only
  (repeat' split) <;> rfl

theorem recordCause_uncaptured_le (r : Report) (now : Time) (w : WakeUnit) (h : w.uncaptured ≤ 65535) :
    (recordCause r now w).uncaptured ≤ 65535 := by
  rw [recordCause_uncaptured]
  split
  · exact satAdd_le _ _ _
  · exact h

theorem reportCause_queuesOk (s : State) (r : Report) (h : QueuesOk s) : QueuesOk (reportCause r s) := by
  have hrecorded : QueuesOk { s with wake := recordCause r s.time s.wake } := by
    obtain ⟨hattempts, huncaptured⟩ := queuesOk_wakeCounts h
    refine queuesOk_withWake ?_ (recordCause_uncaptured_le r s.time s.wake huncaptured) h
    rw [(recordCause_keeps r s.time s.wake).2.2.2.2.2.2.2.2.2.1]
    exact hattempts
  unfold reportCause
  split
  · dsimp only
    split
    · exact enterCalling_queuesOk _ hrecorded
    · exact hrecorded
  · exact h

theorem produceReply_queuesOk (s : State) (tag : Byte) (body : List Byte) (h : QueuesOk s) :
    QueuesOk (produceReply tag body s) := h

theorem replyInFlight_queuesOk (body : List Byte) (s : State) (h : QueuesOk s) : QueuesOk (replyInFlight body s) := by
  unfold replyInFlight
  split
  · exact h
  · exact h

theorem endArming_queuesOk (s : State) (linkDown : Bool) (h : QueuesOk s) : QueuesOk (endArming linkDown s) := by
  have hchanged := changeState_queuesOk .standing .handedOver _
    (replyInFlight_queuesOk (handOverReply linkDown s) s h)
  unfold endArming
  dsimp only
  split
  · exact hchanged
  · exact enterCalling_queuesOk _ hchanged

theorem sendingStep_queuesOk (s : State) (h : QueuesOk s) : QueuesOk (sendingStep s) := by
  unfold sendingStep
  split
  · exact h
  · exact h

theorem enterReturning_queuesOk (s : State) (reason : Reason) (outcome : WakeOutcome) (h : QueuesOk s) :
    QueuesOk (enterReturning reason outcome s) :=
  checkDrained_queuesOk _ (sendingStep_queuesOk _ (changeState_queuesOk .returning reason s h))

theorem offerTx_queuesOk (s : State) (kind : TxKind) (owner : TxOwner) (f : List Byte)
    (howner : ∀ build entry, owner = .listItem build entry → build ≤ s.responder.build) (h : QueuesOk s) :
    QueuesOk (offerTx kind owner f s) := by
  unfold offerTx
  split
  · rename_i haccepted
    obtain ⟨hrx, _, hnotices, hlost, hattempts, huncaptured, hcounters, hbuild⟩ := h
    have hroom : s.port.txQueue.length < 8 := by
      unfold offerResult at haccepted
      split at haccepted
      · split at haccepted
        · assumption
        · split at haccepted <;> cases haccepted
      · cases haccepted
    refine ⟨hrx, by simpa using hroom, hnotices, hlost, hattempts, huncaptured, hcounters, ?_⟩
    intro x hx build entry hx'
    rcases List.mem_append.1 hx with hx | hx
    · exact hbuild x hx build entry hx'
    · rw [List.mem_singleton.1 hx] at hx'
      exact howner build entry hx'
  · exact count_queuesOk s _ _ h
  · exact h

theorem requestHold_queuesOk (s : State) (f : List Byte) (source : HoldSource) (kept : Bool) (h : QueuesOk s) :
    QueuesOk (requestHold f source kept s).state := by
  unfold requestHold
  split
  · exact count_queuesOk s _ _ h
  · refine sendingStep_queuesOk _ ?_
    exact count_queuesOk { s with hold := { s.hold with queue := _ } } _ _ h

theorem takeDeliverDone_queuesOk (s : State) (h : QueuesOk s) : QueuesOk (takeDeliverDone s) := by
  unfold takeDeliverDone
  split
  · exact h
  · split
    · exact h
    · exact count_queuesOk { s with hold := { s.hold with queue := removeInFlight s.hold.queue } } _ _ h

theorem takeRise_queuesOk (s : State) (h : QueuesOk s) : QueuesOk (takeRise s) := by
  unfold takeRise hostupRise
  split
  · split
    · exact startClaim_queuesOk _ h
    · split
      · exact startClaim_queuesOk _ h
      · exact h
    all_goals exact h
  · exact h

theorem takeFall_queuesOk (s : State) (h : QueuesOk s) : QueuesOk (takeFall s) := by
  unfold takeFall hostupFall
  split
  · split
    · split <;> exact h
    · split
      · exact startAttempt_queuesOk _ h
      · exact h
    · refine changeState_queuesOk _ _ _ ?_
      exact count_queuesOk s .cutDiscarded _ h
    all_goals exact h
  · exact h

theorem takeGap_queuesOk (s : State) (h : QueuesOk s) : QueuesOk (takeGap s) := by
  unfold takeGap endGap
  split
  · split
    · exact startAttempt_queuesOk s h
    · exact changeState_queuesOk _ _ _ h
  · exact h

theorem releaseFrame_notices (n : Nat) (h : HostPort) :
    (releaseFrame n h).notices.length ≤ h.notices.length ∧ (releaseFrame n h).lost = h.lost := by
  unfold releaseFrame
  split
  · exact ⟨le_rfl, rfl⟩
  · rename_i f _
    split
    · unfold HostPort.deliver
      cases f.kind <;> simp
    · exact ⟨le_rfl, rfl⟩

/-- The operations that the commands are made of keep the buffers and counts in their bounds. -/
theorem kept_queuesOk : Kept QueuesOk where
  idle _ _ _ _ h := h
  reset _ _ _ := by
    refine ⟨Nat.zero_le _, Nat.zero_le _, show 1 ≤ 16 by decide, Nat.zero_le _, Nat.zero_le _, Nat.zero_le _,
      fun c => ?_, fun _ hx => absurd hx List.not_mem_nil⟩
    exact (zeroCounters_get c).trans_le (Nat.zero_le _)
  lineChange _ _ h := by unfold moveHostup; split <;> exact h
  rise := takeRise_queuesOk
  fall := takeFall_queuesOk
  response _ h := by unfold takeResponse; split <;> exact h
  gap := takeGap_queuesOk
  hcsFall _ h := by unfold fallHcs; split <;> exact h
  transaction s clocked h :=
    queuesOk_of_le (s := s) le_rfl rfl (releaseFrame_notices _ s.host).1 (releaseFrame_notices clocked.length s.host).2 rfl rfl
      rfl le_rfl h
  unseen _ h := h
  previous _ _ h := h
  count s c n _ := count_queuesOk s c n
  counts := count_queuesOk
  zeroed _ h := by
    obtain ⟨hrx, htx, hnotices, hlost, hattempts, huncaptured, _, hbuild⟩ := h
    exact ⟨hrx, htx, hnotices, hlost, hattempts, huncaptured,
      fun c => (zeroCounters_get c).trans_le (Nat.zero_le _), hbuild⟩
  reply _ _ _ h := h
  release _ h := queuesOk_withWake (queuesOk_wakeCounts h).1 (Nat.zero_le _) h
  writeEntry _ _ _ h := h
  insertRule _ _ _ _ _ h := h
  removeRule _ _ h := h
  writeTemplate _ _ _ h := h
  writeSession _ _ _ _ h := h
  writePolicy _ _ _ _ h := h
  clearTables _ _ h := by
    obtain ⟨hrx, htx, hnotices, hlost, _, _, _, hbuild⟩ := h
    exact ⟨hrx, htx, hnotices, hlost, Nat.zero_le _, Nat.zero_le _,
      fun c => (zeroCounters_get c).trans_le (Nat.zero_le _), hbuild⟩
  startBlocks s _ _ _ h := by
    obtain ⟨hrx, htx, hnotices, hlost, _, _, hcounters, hbuild⟩ := changeState_queuesOk .arming .handedOver s h
    refine ⟨hrx, htx, hnotices, hlost, Nat.zero_le _, Nat.zero_le _, hcounters, fun x hx build entry howner => ?_⟩
    exact Nat.le_succ_of_le (hbuild x hx build entry howner)
  endArming s linkDown _ := endArming_queuesOk s linkDown
  enterReturning s reason outcome _ := enterReturning_queuesOk s reason outcome
  checkDrained := checkDrained_queuesOk
  report := reportCause_queuesOk
  offer := offerTx_queuesOk
  turn _ _ h := h
  popped s x rest hqueue h := by
    obtain ⟨hrx, htx, hnotices, hlost, hattempts, huncaptured, hcounters, hbuild⟩ := h
    rw [hqueue] at htx
    refine ⟨hrx, (Nat.le_succ _).trans htx, hnotices, hlost, hattempts, huncaptured, hcounters, ?_⟩
    exact fun y hy => hbuild y (hqueue ▸ List.mem_cons_of_mem x hy)
  listSettled _ _ _ h := h
  listed _ _ h := h
  entry _ _ _ h := h
  session _ _ _ _ h := h
  nextProbe _ _ h := h
  template _ _ _ h := h
  rebuilt s h := queuesOk_of_le (s := s) le_rfl rfl le_rfl rfl rfl rfl rfl (Nat.le_succ _) h
  linkChanged _ _ _ h := queueNotice_queuesOk _ _ h
  sent _ _ h := h
  rxJoined _ _ hroom h := by
    obtain ⟨_, htx, hnotices, hlost, hattempts, huncaptured, hcounters, hbuild⟩ := h
    exact ⟨by simpa using hroom, htx, hnotices, hlost, hattempts, huncaptured, hcounters, hbuild⟩
  rxTaken s f rest hbuffer h :=
    queuesOk_of_le (s := s) (by simp [hbuffer]) rfl le_rfl rfl rfl rfl rfl le_rfl h
  portCleared _ h := by
    obtain ⟨_, _, hnotices, hlost, hattempts, huncaptured, hcounters, _⟩ := h
    exact ⟨Nat.zero_le _, Nat.zero_le _, hnotices, hlost, hattempts, huncaptured, hcounters,
      fun _ hx => absurd hx List.not_mem_nil⟩
  announcementsDropped _ h := h
  probesRequeued _ h := queuesOk_of_keeps (by simp) (by simp) (by simp) (by simp) (by simp) h
  deliveriesReset _ h := h
  deliverDone := takeDeliverDone_queuesOk
  sending := sendingStep_queuesOk
  accepted := requestHold_queuesOk
  current _ _ h := h
  advance _ _ h := h
  hit _ _ _ h _ _ := queuesOk_of_keeps (by simp) (by simp) (by simp) (by simp) (by simp) h
  overflow _ _ h := queuesOk_of_keeps (by simp) (by simp) (by simp) (by simp) (by simp) h
  period _ _ h := by unfold expirePeriod; dsimp only; split <;> exact h

/-- Settles O7: every operation that a command is made of keeps the buffers and counts in their bounds. -/
theorem stepKeepsQueues : Obligations.StepKeepsQueues := kept_queuesOk.step

end Sys2Proof.Proofs
end

section
/-! PROOFS. The tables keep their sizes and every hit count its budget at every step (R28, R62, R73, R78, R92). -/

namespace Sys2Proof.Proofs

open Sys2Proof Sys2Proof.Machine

@[simp] theorem modifyAt_length {α : Type} (l : List (Option α)) (i : Nat) (f : α → α) :
    (modifyAt l i f).length = l.length := by
  simp [modifyAt]

@[simp] theorem mapTable_length {α : Type} (l : List (Option α)) (f : α → α) : (mapTable l f).length = l.length := by
  simp [mapTable]

theorem tablesOk_of_eq {s t : State} (h : TablesOk s) (hentries : t.responder.entries.length = s.responder.entries.length)
    (hsessions : t.keeper.sessions.length = s.keeper.sessions.length)
    (htemplates : t.builder.templates.length = s.builder.templates.length)
    (hrules : t.classifier.rules = s.classifier.rules) : TablesOk t := by
  unfold TablesOk at *
  rwa [hentries, hsessions, htemplates, hrules]

theorem tablesOk_of_keeps {s t : State} (h : TablesOk s) (hresponder : t.responder = s.responder) (hkeeper : t.keeper = s.keeper)
    (hbuilder : t.builder = s.builder) (hclassifier : t.classifier = s.classifier) : TablesOk t :=
  tablesOk_of_eq h (by rw [hresponder]) (by rw [hkeeper]) (by rw [hbuilder]) (by rw [hclassifier])

/-- A new rule list with every hit count within its budget takes the place of the old one. -/
theorem tablesOk_withRules {s t : State} (h : TablesOk s) (hentries : t.responder.entries = s.responder.entries)
    (hsessions : t.keeper.sessions = s.keeper.sessions) (htemplates : t.builder.templates = s.builder.templates)
    (hlength : t.classifier.rules.length ≤ 32) (hhits : ∀ r ∈ t.classifier.rules, r.hits ≤ r.limit) :
    TablesOk t := by
  obtain ⟨hentries', hsessions', htemplates', _, _⟩ := h
  exact ⟨hentries ▸ hentries', hsessions ▸ hsessions', htemplates ▸ htemplates', hlength, hhits⟩

theorem tablesOk_rules {s : State} (h : TablesOk s) :
    s.classifier.rules.length ≤ 32 ∧ ∀ r ∈ s.classifier.rules, r.hits ≤ r.limit := by
  obtain ⟨_, _, _, hlength, hhits⟩ := h
  exact ⟨hlength, hhits⟩

/-! Hits. -/

/-- A rule read with a place that is in the list is the rule at that place (R52). -/
theorem getElem_of_mem_rulesRead {s : State} {r : Rule} {i : Nat} (h : (r, some i) ∈ rulesRead s)
    (hi : i < s.classifier.rules.length) : s.classifier.rules[i] = r := by
  unfold rulesRead at h
  split at h
  · obtain ⟨p, hp, heq⟩ := List.mem_map.1 h
    injection heq with hr hplace
    injection hplace with hplace
    subst hr hplace
    obtain ⟨_, _, hget⟩ := List.mem_zipIdx hp
    simpa using hget.symm
  · obtain ⟨p, _, heq⟩ := List.mem_map.1 h
    split at heq
    · injection heq with hr hplace
      injection hplace with hplace
      subst hplace
      simpa [hi] using hr
    · rename_i hnone
      subst heq
      cases hnone

/-- A change of the rule at a place keeps every hit count within its budget where the changed rule's is. -/
theorem hits_le_of_modify {rules : List Rule} {i : Nat} {f : Rule → Rule} (h : ∀ r ∈ rules, r.hits ≤ r.limit)
    (hf : ∀ hi : i < rules.length, (f rules[i]).hits ≤ (f rules[i]).limit) :
    ∀ r ∈ rules.modify i f, r.hits ≤ r.limit := by
  intro r hr
  obtain ⟨j, hj, hget⟩ := List.mem_iff_getElem.1 hr
  rw [List.getElem_modify] at hget
  rw [List.length_modify] at hj
  split at hget
  · rename_i hij
    subst hij
    exact hget ▸ hf hj
  · exact hget ▸ h _ (List.getElem_mem hj)

theorem touchRule_tablesOk {s : State} {place : Option Nat} {f : Rule → Rule} (h : TablesOk s)
    (hf : ∀ i, place = some i → ∀ hi : i < s.classifier.rules.length,
      (f s.classifier.rules[i]).hits ≤ (f s.classifier.rules[i]).limit) : TablesOk (touchRule place f s) := by
  unfold touchRule
  split
  · rename_i i
    obtain ⟨hlength, hhits⟩ := tablesOk_rules h
    exact tablesOk_withRules h rfl rfl rfl (by simpa using hlength) (hits_le_of_modify hhits (hf i rfl))
  · exact h

theorem hit_tablesOk (s : State) (r : Rule) (place : Option Nat) (h : TablesOk s) (hbudget : r.hits < r.limit)
    (hread : (r, place) ∈ rulesRead s) : TablesOk (touchRule place (fun r => { r with hits := r.hits + 1 }) s) := by
  refine touchRule_tablesOk h fun i hplace hi => ?_
  rw [hplace] at hread
  rw [getElem_of_mem_rulesRead hread hi]
  exact hbudget

theorem overflow_tablesOk (s : State) (place : Option Nat) (h : TablesOk s) :
    TablesOk (touchRule place (fun r => { r with overflows := inc32 r.overflows }) s) :=
  touchRule_tablesOk h fun i _ hi => (tablesOk_rules h).2 s.classifier.rules[i] (List.getElem_mem hi)

theorem zeroHits_hits {c : PeriodClass} {rules : List Rule} (h : ∀ r ∈ rules, r.hits ≤ r.limit) :
    ∀ r ∈ zeroHits c rules, r.hits ≤ r.limit := by
  intro r hr
  obtain ⟨q, hq, heq⟩ := List.mem_map.1 hr
  subst heq
  split
  · exact Nat.zero_le _
  · exact h q hq

theorem expirePeriod_tablesOk (s : State) (c : PeriodClass) (h : TablesOk s) : TablesOk (expirePeriod c s) := by
  obtain ⟨hlength, hhits⟩ := tablesOk_rules h
  have hzeroed : TablesOk
      { s with
        classifier :=
          { s.classifier with
            rules := zeroHits c s.classifier.rules
            periods := s.classifier.periods.restart c s.time } } :=
    tablesOk_withRules h rfl rfl rfl (by simpa [zeroHits] using hlength) (zeroHits_hits hhits)
  unfold expirePeriod
  dsimp only
  split
  · exact tablesOk_of_eq hzeroed (by simp [zeroBudgets]) rfl rfl rfl
  · exact hzeroed

/-! Edits. -/

theorem insertRule_tablesOk (s : State) (p : Nat) (r : Rule) (hroom : s.classifier.rules.length < 32)
    (hhits : r.hits = 0) (h : TablesOk s) : TablesOk (insertRule p r s) := by
  refine tablesOk_withRules h rfl rfl rfl ?_ (fun q hq => ?_)
  · have : (s.classifier.rules.take p).length + (s.classifier.rules.drop p).length = s.classifier.rules.length := by
      rw [← List.length_append, List.take_append_drop]
    simp only [insertRule, writeRules_rules, List.length_append, List.length_cons]
    omega
  · rcases List.mem_append.1 hq with hq | hq
    · exact (tablesOk_rules h).2 q (List.mem_of_mem_take hq)
    · rcases List.mem_cons.1 hq with hq | hq
      · rw [hq, hhits]
        exact Nat.zero_le _
      · exact (tablesOk_rules h).2 q (List.mem_of_mem_drop hq)

theorem removeRule_tablesOk (s : State) (p : Nat) (h : TablesOk s) : TablesOk (removeRule p s) :=
  tablesOk_withRules h rfl rfl rfl ((List.length_eraseIdx_le _ _).trans (tablesOk_rules h).1)
    (fun q hq => (tablesOk_rules h).2 q (List.mem_of_mem_eraseIdx hq))

theorem startBlocks_tablesOk (s : State) (depth : Depth) (tag : Byte) (h : TablesOk s) :
    TablesOk (startBlocks depth tag s) := by
  obtain ⟨hentries, hsessions, htemplates, hlength, _⟩ := h
  refine ⟨by simpa [startBlocks] using hentries, by simpa [startBlocks] using hsessions, by simpa using htemplates,
    by simpa [startBlocks] using hlength, fun r hr => ?_⟩
  obtain ⟨q, _, heq⟩ := List.mem_map.1 hr
  exact heq ▸ Nat.zero_le _

theorem enterReturning_tablesOk (s : State) (reason : Reason) (outcome : WakeOutcome) (h : TablesOk s) :
    TablesOk (enterReturning reason outcome s) :=
  tablesOk_of_eq h (by simp [enterReturning, abandonItems]) (by simp [enterReturning]) (by simp)
    (by simp [enterReturning, markReached4])

theorem requeueProbes_tablesOk (s : State) (h : TablesOk s) : TablesOk (requeueProbes s) := by
  unfold requeueProbes
  split
  · exact tablesOk_of_eq h rfl (by simp) rfl rfl
  · exact h

theorem takeFall_tablesOk (s : State) (h : TablesOk s) : TablesOk (takeFall s) :=
  tablesOk_of_keeps h (by simp) (by simp) (by simp) (by simp)

/-- The operations that the commands are made of keep the tables in order. -/
theorem kept_tablesOk : Kept TablesOk where
  idle _ _ _ _ h := h
  reset _ _ _ := ⟨rfl, rfl, rfl, Nat.zero_le _, fun _ hr => absurd hr List.not_mem_nil⟩
  lineChange _ _ h := tablesOk_of_keeps h (by simp) (by simp) (by simp) (by simp)
  rise _ h := tablesOk_of_keeps h (by simp) (by simp) (by simp) (by simp)
  fall := takeFall_tablesOk
  response _ h := tablesOk_of_keeps h (by simp) (by simp) (by simp) (by simp)
  gap _ h := tablesOk_of_keeps h (by simp) (by simp) (by simp) (by simp)
  hcsFall _ h := tablesOk_of_keeps h (by simp) (by simp) (by simp) (by simp)
  transaction _ _ h := h
  unseen _ h := h
  previous _ _ h := h
  count _ _ _ _ h := h
  counts _ _ _ h := h
  zeroed _ h := h
  reply _ _ _ h := h
  release _ h := h
  writeEntry _ _ _ h := tablesOk_of_eq h (by simp) (by simp) (by simp) rfl
  insertRule := insertRule_tablesOk
  removeRule := removeRule_tablesOk
  writeTemplate _ _ _ h := tablesOk_of_eq h (by simp) (by simp) (by simp) rfl
  writeSession _ _ _ _ h := tablesOk_of_eq h (by simp) (by simp) (by simp) rfl
  writePolicy _ _ _ _ h := tablesOk_of_eq h (by simp) (by simp) (by simp) rfl
  clearTables _ _ _ := ⟨rfl, rfl, rfl, Nat.zero_le _, fun _ hr => absurd hr List.not_mem_nil⟩
  startBlocks s depth tag _ := startBlocks_tablesOk s depth tag
  endArming _ _ _ h := tablesOk_of_keeps h (by simp) (by simp) (by simp) (by simp)
  enterReturning s reason outcome _ := enterReturning_tablesOk s reason outcome
  checkDrained _ h := tablesOk_of_keeps h (by simp) (by simp) (by simp) (by simp)
  report _ _ h := tablesOk_of_keeps h (by simp) (by simp) (by simp) (by simp)
  offer _ _ _ _ _ h := tablesOk_of_keeps h (by simp) (by simp) (by simp) (by simp)
  turn _ _ h := h
  popped _ _ _ _ h := h
  listSettled _ _ _ h := h
  listed _ _ h := h
  entry _ _ _ h := tablesOk_of_eq h (by simp) (by simp) (by simp) rfl
  session _ _ _ _ h := tablesOk_of_eq h (by simp) (by simp) (by simp) rfl
  nextProbe _ _ h := h
  template _ _ _ h := tablesOk_of_eq h rfl rfl (by simp) rfl
  rebuilt _ h := tablesOk_of_eq h (by simp [rebuildList]) rfl rfl rfl
  linkChanged _ _ _ h := tablesOk_of_keeps h (by simp) (by simp) (by simp) (by simp)
  sent _ _ h := h
  rxJoined _ _ _ h := h
  rxTaken _ _ _ _ h := h
  portCleared _ h := h
  announcementsDropped _ h := tablesOk_of_eq h (by simp [dropAnnouncements]) rfl rfl rfl
  probesRequeued := requeueProbes_tablesOk
  deliveriesReset _ h := h
  deliverDone _ h := tablesOk_of_keeps h (by simp) (by simp) (by simp) (by simp)
  sending _ h := tablesOk_of_keeps h (by simp) (by simp) (by simp) (by simp)
  accepted _ _ _ _ h := tablesOk_of_keeps h (by simp) (by simp) (by simp) (by simp)
  current _ _ h := h
  advance _ _ h := h
  hit := hit_tablesOk
  overflow := overflow_tablesOk
  period := expirePeriod_tablesOk

/-- Settles O8: every operation that a command is made of keeps the tables' sizes and the hit counts in their budgets. -/
theorem stepKeepsTables : Obligations.StepKeepsTables := kept_tablesOk.step

end Sys2Proof.Proofs
end

section
/-! PROOFS. Every session record's timers agree with its state at every step (R97, R99, R106, R109). -/

namespace Sys2Proof.Proofs

open Sys2Proof Sys2Proof.Machine

theorem sessionsOk_of_eq {s t : State} (hsessions : t.keeper.sessions = s.keeper.sessions) (h : SessionsOk s) :
    SessionsOk t := by
  unfold SessionsOk at *
  rwa [hsessions]

theorem sessionsOk_of_keeps {s t : State} (hkeeper : t.keeper = s.keeper) (h : SessionsOk s) : SessionsOk t :=
  sessionsOk_of_eq (by rw [hkeeper]) h

/-- A table whose records are in order stays so when every record is changed into one in order. -/
theorem mem_mapTable {sessions : List (Option Session)} {f : Session → Session} {y : Session}
    (hy : some y ∈ mapTable sessions f) : ∃ x, some x ∈ sessions ∧ f x = y := by
  obtain ⟨o, ho, heq⟩ := List.mem_map.1 hy
  obtain ⟨x, rfl, hx⟩ := Option.map_eq_some_iff.1 heq
  exact ⟨x, ho, hx⟩

theorem sessionsOk_mapTable {sessions : List (Option Session)} {f : Session → Session}
    (h : ∀ x, some x ∈ sessions → SessionOk x) (hf : ∀ x, SessionOk x → SessionOk (f x)) :
    ∀ y, some y ∈ mapTable sessions f → SessionOk y := by
  intro y hy
  obtain ⟨x, hx, rfl⟩ := mem_mapTable hy
  exact hf x (h x hx)

theorem modifySession_sessionsOk (s : State) (i : Nat) (f : Session → Session)
    (hf : ∀ x, lookup s.keeper.sessions i = some x → SessionOk x → SessionOk (f x)) (h : SessionsOk s) :
    SessionsOk (modifySession i f s) := by
  intro y hy
  obtain ⟨j, hj, hget⟩ := List.mem_iff_getElem.1 hy
  simp only [modifySession_keeper, modifyAt, List.getElem_modify, List.length_modify] at hget hj
  split at hget
  · rename_i hij
    subst hij
    obtain ⟨x, hx, rfl⟩ := Option.map_eq_some_iff.1 hget
    have hlookup : lookup s.keeper.sessions i = some x := by
      simp only [lookup, List.getD_eq_getElem?_getD, List.getElem?_eq_getElem hj, hx, Option.getD_some]
    exact hf x hlookup (h x (hx ▸ List.getElem_mem hj))
  · exact h y (hget ▸ List.getElem_mem hj)

theorem writeSession_sessionsOk (s : State) (i : Nat) (x : Option Session) (hx : ∀ y, x = some y → SessionOk y)
    (h : SessionsOk s) : SessionsOk (writeSession i x s) := by
  intro y hy
  rw [writeSession_keeper] at hy
  rcases List.mem_or_eq_of_mem_set hy with hy | hy
  · exact h y hy
  · exact hx y hy.symm

theorem sessionOk_handOver (x : Session) (entries : List (Option IdentityEntry)) (now : Time) :
    SessionOk (x.handOver entries now) := by
  have hstart : SessionOk (x.start now) := sessionOk_of_ready rfl rfl rfl
  unfold Session.handOver
  split
  · split
    · exact sessionOk_of_idle rfl rfl rfl
    · exact hstart
  · exact hstart

theorem sessionOk_returned (x : Session) : SessionOk x.returned := by
  simp [SessionOk, Session.returned]

theorem startBlocks_sessionsOk (s : State) (depth : Depth) (tag : Byte) (h : SessionsOk s) :
    SessionsOk (startBlocks depth tag s) := by
  have hkeeper : (changeState .arming .handedOver s).keeper = s.keeper := by simp
  exact sessionsOk_mapTable (by rw [hkeeper]; exact h) (fun x _ => sessionOk_handOver x _ _)

theorem enterReturning_sessionsOk (s : State) (reason : Reason) (outcome : WakeOutcome) (h : SessionsOk s) :
    SessionsOk (enterReturning reason outcome s) := by
  have hsessions : (enterReturning reason outcome s).keeper.sessions =
      mapTable s.keeper.sessions Session.returned := by simp [enterReturning]
  unfold SessionsOk
  rw [hsessions]
  exact sessionsOk_mapTable h (fun x _ => sessionOk_returned x)

theorem requeueProbes_sessionsOk (s : State) (h : SessionsOk s) : SessionsOk (requeueProbes s) := by
  unfold requeueProbes
  split
  · refine sessionsOk_mapTable h fun x hx => ?_
    split
    · rename_i hqueued
      simp_all [SessionOk]
    · exact hx
  · exact h

/-- The operations that the commands are made of keep every session record in order. -/
theorem kept_sessionsOk : Kept SessionsOk where
  idle _ _ _ _ h := h
  reset _ _ _ := fun x hx => absurd (List.eq_of_mem_replicate hx) (by simp)
  lineChange _ _ h := sessionsOk_of_keeps (by simp) h
  rise _ h := sessionsOk_of_keeps (by simp) h
  fall _ h := sessionsOk_of_keeps (by simp) h
  response _ h := sessionsOk_of_keeps (by simp) h
  gap _ h := sessionsOk_of_keeps (by simp) h
  hcsFall _ h := sessionsOk_of_keeps (by simp) h
  transaction _ _ h := h
  unseen _ h := h
  previous _ _ h := h
  count _ _ _ _ h := h
  counts _ _ _ h := h
  zeroed _ h := h
  reply _ _ _ h := h
  release _ h := h
  writeEntry _ _ _ h := h
  insertRule _ _ _ _ _ h := h
  removeRule _ _ h := h
  writeTemplate _ _ _ h := h
  writeSession := writeSession_sessionsOk
  writePolicy _ _ _ _ h := h
  clearTables _ _ _ := fun x hx => absurd (List.eq_of_mem_replicate hx) (by simp)
  startBlocks s depth tag _ := startBlocks_sessionsOk s depth tag
  endArming _ _ _ h := sessionsOk_of_keeps (by simp) h
  enterReturning s reason outcome _ := enterReturning_sessionsOk s reason outcome
  checkDrained _ h := sessionsOk_of_keeps (by simp) h
  report _ _ h := sessionsOk_of_keeps (by simp) h
  offer _ _ _ _ _ h := sessionsOk_of_keeps (by simp) h
  turn _ _ h := h
  popped _ _ _ _ h := h
  listSettled _ _ _ h := h
  listed _ _ h := h
  entry _ _ _ h := h
  session := modifySession_sessionsOk
  nextProbe _ _ h := h
  template _ _ _ h := h
  rebuilt _ h := h
  linkChanged _ _ _ h := sessionsOk_of_keeps (by simp) h
  sent _ _ h := h
  rxJoined _ _ _ h := h
  rxTaken _ _ _ _ h := h
  portCleared _ h := h
  announcementsDropped _ h := h
  probesRequeued := requeueProbes_sessionsOk
  deliveriesReset _ h := h
  deliverDone _ h := sessionsOk_of_keeps (by simp) h
  sending _ h := sessionsOk_of_keeps (by simp) h
  accepted _ _ _ _ h := sessionsOk_of_keeps (by simp) h
  current _ _ h := h
  advance _ _ h := h
  hit _ _ _ h _ _ := sessionsOk_of_keeps (by simp) h
  overflow _ _ h := sessionsOk_of_keeps (by simp) h
  period _ _ h := sessionsOk_of_keeps (by simp) h

/-- Settles O10: every operation that a command is made of keeps every session record in order. -/
theorem stepKeepsSessions : Obligations.StepKeepsSessions := kept_sessionsOk.step

end Sys2Proof.Proofs
end

section
/-! PROOFS. The wake record and the evidence slots are in order at every step (R130, R134, R138). -/

namespace Sys2Proof.Proofs

open Sys2Proof Sys2Proof.Machine

/-! Cause sets. -/

theorem mem_causeOrder (c : Cause) : c ∈ causeOrder := by
  cases c <;> simp [causeOrder]

/-- A set that has a cause has a primary cause (R130). -/
theorem primary_isSome {e : CauseSet} {c : Cause} (h : e.has c = true) : e.primary.isSome = true := by
  rw [CauseSet.primary, List.find?_isSome]
  exact ⟨c, mem_causeOrder c, h⟩

/-- A set is part of another. -/
theorem and_not_eq_zero_iff {w : Nat} (e n : BitVec w) :
    e &&& ~~~n = 0 ↔ ∀ i, e.getLsbD i = true → n.getLsbD i = true := by
  constructor
  · intro h i hi
    have hlt := BitVec.lt_of_getLsbD hi
    have hbit := congrArg (fun v : BitVec w => v.getLsbD i) h
    simpa [hi, hlt] using hbit
  · intro h
    apply BitVec.eq_of_getLsbD_eq
    intro i hi
    have hbit := h i
    cases he : e.getLsbD i <;> simp_all

theorem join_subset {e n : CauseSet} (c : Cause) (h : e &&& ~~~n = 0) : e.join c &&& ~~~(n.join c) = 0 := by
  rw [and_not_eq_zero_iff] at *
  intro i hi
  simp only [CauseSet.join, BitVec.getLsbD_or, Bool.or_eq_true] at *
  exact hi.imp_left (h i)

theorem subset_join {e n : CauseSet} (c : Cause) (h : e &&& ~~~n = 0) : e &&& ~~~(n.join c) = 0 := by
  rw [and_not_eq_zero_iff] at *
  intro i hi
  simp only [CauseSet.join, BitVec.getLsbD_or, Bool.or_eq_true]
  exact .inl (h i hi)

/-! The wake unit. -/

/-- Evidence fills slot A first, then slot B with the lock (R134). -/
theorem capture_wakeOk (e : Evidence) {w : WakeUnit} (h : WakeOk w) : WakeOk (capture e w) := by
  obtain ⟨hlock, hslots, hprimary, hfirst, hsubset⟩ := h
  unfold capture
  split
  · exact ⟨hlock, fun _ => rfl, hprimary, hfirst, hsubset⟩
  · rename_i hA
    split
    · refine ⟨rfl, fun _ => ?_, hprimary, hfirst, hsubset⟩
      simpa [Option.isSome_iff_ne_none] using hA
    · exact ⟨hlock, hslots, hprimary, hfirst, hsubset⟩

theorem recordCause_wakeOk (r : Report) (now : Time) {w : WakeUnit} (h : WakeOk w) : WakeOk (recordCause r now w) := by
  obtain ⟨hlock, hslots, hprimary, hfirst, hsubset⟩ := h
  unfold recordCause
  dsimp only
  split
  · have henabled : WakeOk
        { w with
          uncaptured := if w.lock then satAdd 65535 w.uncaptured 1 else w.uncaptured
          record := enableCause r.cause now { w.record with noted := w.record.noted.join r.cause } } :=
      ⟨hlock, hslots, rfl, (primary_isSome (join_has w.record.enabled r.cause)).symm, join_subset r.cause hsubset⟩
    split
    · exact henabled
    · exact capture_wakeOk _ henabled
  · exact ⟨hlock, hslots, hprimary, hfirst, subset_join r.cause hsubset⟩

theorem beginCalling_wakeOk (s : State) (h : WakeOk s.wake) : WakeOk (beginCalling s).wake := by
  unfold beginCalling
  dsimp only
  split
  · split
    · exact h
    · exact h
  · exact h

theorem enterCalling_wakeOk (s : State) (h : WakeOk s.wake) : WakeOk (enterCalling s).wake :=
  beginCalling_wakeOk _ (by simpa using h)

theorem reportCause_wakeOk (s : State) (r : Report) (h : WakeOk s.wake) : WakeOk (reportCause r s).wake := by
  unfold reportCause
  split
  · dsimp only
    split
    · exact enterCalling_wakeOk _ (recordCause_wakeOk r s.time h)
    · exact recordCause_wakeOk r s.time h
  · exact h

theorem endArming_wakeOk (s : State) (linkDown : Bool) (h : WakeOk s.wake) : WakeOk (endArming linkDown s).wake := by
  have hchanged : WakeOk (changeState .standing .handedOver (replyInFlight (handOverReply linkDown s) s)).wake := by
    simpa using h
  unfold endArming
  dsimp only
  split
  · exact hchanged
  · exact enterCalling_wakeOk _ hchanged

theorem enterReturning_wakeOk (s : State) (reason : Reason) (outcome : WakeOutcome) (h : WakeOk s.wake) :
    WakeOk (enterReturning reason outcome s).wake := by
  have hwake : (enterReturning reason outcome s).wake = freezeWake outcome s.wake := by simp [enterReturning]
  rw [hwake]
  exact h

theorem wakeOk_reset (w : WakeUnit) (hlock : w.lock = false) (hslotA : w.slotA = none) (hslotB : w.slotB = none)
    (hprimary : w.record.primary = none) (hfirst : w.record.firstTime = none) (henabled : w.record.enabled = 0) :
    WakeOk w := by
  unfold WakeOk
  rw [hlock, hslotA, hslotB, hprimary, hfirst, henabled]
  refine ⟨rfl, id, by decide, rfl, BitVec.zero_and⟩

theorem takeFall_wakeOk (s : State) (h : WakeOk s.wake) : WakeOk (takeFall s).wake := by
  unfold takeFall hostupFall
  split
  · split
    · split <;> exact h
    · split <;> exact h
    · have hwake : (cutReturn (filterHostup false s)).wake = (filterHostup false s).wake := by simp
      rw [hwake]
      exact h
    all_goals exact h
  · exact h

theorem takeRise_wakeOk (s : State) (h : WakeOk s.wake) : WakeOk (takeRise s).wake := by
  unfold takeRise hostupRise
  split
  · split
    · exact h
    · split <;> exact h
    all_goals exact h
  · exact h

theorem takeGap_wakeOk (s : State) (h : WakeOk s.wake) : WakeOk (takeGap s).wake := by
  unfold takeGap endGap
  split
  · split
    · exact h
    · have hwake : WakeOk
          { s.wake with
            record := { s.wake.record with outcome := .lost }, wakereq := false, gap := none, phase := .none } := h
      simpa [giveUp] using hwake
  · exact h

theorem wakeOk_of_keeps {s t : State} (h : WakeOk s.wake) (hwake : t.wake = s.wake) : WakeOk t.wake := hwake ▸ h

/-- The operations that the commands are made of keep the wake record and the evidence in order. -/
theorem kept_wakeOk : Kept (fun s => WakeOk s.wake) where
  idle _ _ _ _ h := h
  reset _ _ _ := wakeOk_reset _ rfl rfl rfl rfl rfl rfl
  lineChange _ _ h := by unfold moveHostup; split <;> exact h
  rise := takeRise_wakeOk
  fall := takeFall_wakeOk
  response _ h := by unfold takeResponse; split <;> exact h
  gap := takeGap_wakeOk
  hcsFall _ h := wakeOk_of_keeps h (by simp)
  transaction _ _ h := h
  unseen _ h := h
  previous _ _ h := h
  count _ _ _ _ h := h
  counts _ _ _ h := h
  zeroed _ h := h
  reply _ _ _ h := h
  release _ h := by
    obtain ⟨_, _, hprimary, hfirst, hsubset⟩ := h
    exact ⟨rfl, id, hprimary, hfirst, hsubset⟩
  writeEntry _ _ _ h := h
  insertRule _ _ _ _ _ h := h
  removeRule _ _ h := h
  writeTemplate _ _ _ h := h
  writeSession _ _ _ _ h := h
  writePolicy _ _ _ _ h := h
  clearTables _ _ _ := wakeOk_reset _ rfl rfl rfl rfl rfl rfl
  startBlocks _ _ _ _ _ := wakeOk_reset _ rfl rfl rfl rfl rfl rfl
  endArming s linkDown _ := endArming_wakeOk s linkDown
  enterReturning s reason outcome _ := enterReturning_wakeOk s reason outcome
  checkDrained _ h := wakeOk_of_keeps h (by simp)
  report := reportCause_wakeOk
  offer _ _ _ _ _ h := wakeOk_of_keeps h (by simp)
  turn _ _ h := h
  popped _ _ _ _ h := h
  listSettled _ _ _ h := h
  listed _ _ h := h
  entry _ _ _ h := h
  session _ _ _ _ h := h
  nextProbe _ _ h := h
  template _ _ _ h := h
  rebuilt _ h := h
  linkChanged _ _ _ h := wakeOk_of_keeps h (by simp)
  sent _ _ h := h
  rxJoined _ _ _ h := h
  rxTaken _ _ _ _ h := h
  portCleared _ h := h
  announcementsDropped _ h := h
  probesRequeued _ h := wakeOk_of_keeps h (by simp)
  deliveriesReset _ h := h
  deliverDone _ h := wakeOk_of_keeps h (by simp)
  sending _ h := wakeOk_of_keeps h (by simp)
  accepted _ _ _ _ h := wakeOk_of_keeps h (by simp)
  current _ _ h := h
  advance _ _ h := h
  hit _ _ _ h _ _ := wakeOk_of_keeps h (by simp)
  overflow _ _ h := wakeOk_of_keeps h (by simp)
  period _ _ h := wakeOk_of_keeps h (by simp)

/-- Settles O9: every operation that a command is made of keeps the wake record and the evidence in order. -/
theorem stepKeepsWakeRecord : Obligations.StepKeepsWakeRecord := kept_wakeOk.step

end Sys2Proof.Proofs
end

section
/-! PROOFS. The accounts of the frames and of the holds over a step (R181, R182; O12 and O13). -/

namespace Sys2Proof.Proofs

open Sys2Proof Sys2Proof.Machine

/-- The counters of the two accounts. -/
inductive InAccount : Counter → Prop
  | framesTaken : InAccount .framesTaken
  | settled (d : Disposition) : InAccount (.settled d)
  | displaced : InAccount .displaced
  | delivered : InAccount .delivered
  | cutDiscarded : InAccount .cutDiscarded

theorem InAccount.ne_of_aside {c c' : Counter} (h : InAccount c') (haside : asideCounter c = true) : c ≠ c' := by
  rintro rfl
  cases h <;> cases haside

/-- What the two accounts speak of stands: their counters, the number of records held, and whether a frame is in
classification. -/
def SameAccount (s t : State) : Prop :=
  (∀ c, InAccount c → t.counters.get c = s.counters.get c)
    ∧ t.hold.queue.length = s.hold.queue.length
    ∧ t.classifier.current.isSome = s.classifier.current.isSome

/-- A hold has been requested and its frame is not settled: the record accepted, where b is true, is one more that is in
the queue or displaced. -/
def HoldPending (s : State) (b : Bool) (t : State) : Prop :=
  (∀ c, InAccount c → c ≠ .displaced → t.counters.get c = s.counters.get c)
    ∧ t.counters.get .displaced + t.hold.queue.length = s.counters.get .displaced + s.hold.queue.length + b.toNat

/-- A frame of s is in hand in t: it was in classification, or it has been taken since. -/
def FrameInHand (s t : State) : Prop :=
  (∀ c, InAccount c → c ≠ .framesTaken → t.counters.get c = s.counters.get c)
    ∧ t.hold.queue.length = s.hold.queue.length
    ∧ t.counters.get .framesTaken + (if s.classifier.current.isSome then 1 else 0) = s.counters.get .framesTaken + 1

/-- Both accounts move by as much on their two sides. -/
def Balanced (s t : State) : Prop :=
  accounted t + s.counters.framesTaken = accounted s + t.counters.framesTaken
    ∧ holdsOut t + s.counters.held = holdsOut s + t.counters.held

theorem SameAccount.refl (s : State) : SameAccount s s := ⟨fun _ _ => rfl, rfl, rfl⟩

theorem SameAccount.trans {s t u : State} (h : SameAccount s t) (h' : SameAccount t u) : SameAccount s u := by
  obtain ⟨hcounters, hqueue, hcurrent⟩ := h
  obtain ⟨hcounters', hqueue', hcurrent'⟩ := h'
  exact ⟨fun c hc => (hcounters' c hc).trans (hcounters c hc), hqueue'.trans hqueue, hcurrent'.trans hcurrent⟩

theorem HoldPending.trans {s t u : State} {b : Bool} (h : HoldPending s b t) (h' : SameAccount t u) :
    HoldPending s b u := by
  obtain ⟨hcounters, hheld⟩ := h
  obtain ⟨hcounters', hqueue', _⟩ := h'
  refine ⟨fun c hc hne => (hcounters' c hc).trans (hcounters c hc hne), ?_⟩
  rw [hcounters' _ .displaced, hqueue', hheld]

/-! What the operations do to the accounts. -/

/-- An operation that leaves the counters, the records held and the frame in classification keeps the accounts. -/
theorem sameAccount_of_keeps {s t : State} (hcounters : t.counters = s.counters)
    (hqueue : t.hold.queue.length = s.hold.queue.length) (hcurrent : t.classifier.current = s.classifier.current) :
    SameAccount s t :=
  ⟨fun _ _ => by rw [hcounters], hqueue, by rw [hcurrent]⟩

theorem get_count_of_ne {c c' : Counter} (h : c ≠ c') (n : Nat) (s : State) :
    (count c n s).counters.get c' = s.counters.get c' := by
  simp [count, h]

theorem get_count_self {c : Counter} {n : Nat} {s : State} (h : s.counters.get c + n ≤ max32) :
    (count c n s).counters.get c = s.counters.get c + n := by
  simp [count, satAdd, h]

theorem sameAccount_count (c : Counter) (n : Nat) (s : State) (haside : asideCounter c = true) :
    SameAccount s (count c n s) := by
  exact ⟨fun _ hc => get_count_of_ne (hc.ne_of_aside haside) n s, rfl, rfl⟩

theorem sameAccount_offerTx (kind : TxKind) (owner : TxOwner) (f : List Byte) (s : State) :
    SameAccount s (offerTx kind owner f s) := by
  unfold offerTx
  split
  · exact .refl s
  · exact sameAccount_count _ 1 s (by cases kind <;> rfl)
  · exact .refl s

theorem sendingStep_length (s : State) : (sendingStep s).hold.queue.length = s.hold.queue.length := by
  unfold sendingStep
  dsimp only
  split <;> simp

theorem sameAccount_sendingStep (s : State) : SameAccount s (sendingStep s) :=
  sameAccount_of_keeps (by simp) (sendingStep_length s) (by simp)

theorem sameAccount_checkDrained (s : State) : SameAccount s (checkDrained s) :=
  sameAccount_of_keeps (by simp) (by simp) (by simp)

/-- What an edit marks of the frame in classification leaves it there. -/
theorem sameAccount_of_marked {s t : State} {f : Classification → Classification} (hcounters : t.counters = s.counters)
    (hqueue : t.hold.queue.length = s.hold.queue.length)
    (hcurrent : t.classifier.current = s.classifier.current.map f) : SameAccount s t :=
  ⟨fun _ _ => by rw [hcounters], hqueue, by simp [hcurrent]⟩

theorem sameAccount_enterReturning (reason : Reason) (outcome : WakeOutcome) (s : State) :
    SameAccount s (enterReturning reason outcome s) := by
  unfold enterReturning
  dsimp only
  refine .trans (.trans ?_ (sameAccount_sendingStep _)) (sameAccount_checkDrained _)
  exact ⟨fun _ _ => by simp, by simp, by simp [markReached4]⟩

/-- The ordinary operations keep the accounts. -/
theorem ordinary_sameAccount (s₀ : State) : Ordinary (SameAccount s₀) where
  idle _ _ _ _ h := h
  lineChange _ _ h := h.trans (sameAccount_of_keeps (by simp) (by simp) (by simp))
  rise _ h := h.trans (sameAccount_of_keeps (by simp) (by simp) (by simp))
  response _ h := h.trans (sameAccount_of_keeps (by simp) (by simp) (by simp))
  gap _ h := h.trans (sameAccount_of_keeps (by simp) (by simp) (by simp))
  hcsFall _ h := h.trans (sameAccount_of_keeps (by simp) (by simp) (by simp))
  transaction _ _ h := h
  unseen _ h := h
  previous _ _ h := h
  count s c n haside h := h.trans (sameAccount_count c n s haside)
  reply _ _ _ h := h
  release _ h := h
  writeEntry s _ _ h := h.trans (sameAccount_of_marked (s := s) rfl rfl rfl)
  insertRule s _ _ _ _ h := h.trans (sameAccount_of_marked (s := s) rfl rfl rfl)
  removeRule s _ h := h.trans (sameAccount_of_marked (s := s) rfl rfl rfl)
  writeTemplate s _ _ h := h.trans (sameAccount_of_marked (s := s) rfl rfl rfl)
  writeSession s _ _ _ h := h.trans (sameAccount_of_marked (s := s) rfl rfl rfl)
  writePolicy s _ _ _ h := h.trans (sameAccount_of_marked (s := s) rfl rfl rfl)
  startBlocks s _ _ _ h := h.trans (sameAccount_of_keeps (by simp) (by simp) (by simp [startBlocks]))
  endArming s _ _ h := h.trans (sameAccount_of_keeps (by simp) (by simp) (by simp))
  enterReturning s _ _ _ h := h.trans (sameAccount_enterReturning _ _ s)
  checkDrained s h := h.trans (sameAccount_checkDrained s)
  report _ _ h := h.trans (sameAccount_of_keeps (by simp) (by simp) (by simp))
  offer s _ _ _ _ h := h.trans (sameAccount_offerTx _ _ _ s)
  turn _ _ h := h
  popped _ _ _ _ h := h
  listSettled _ _ _ h := h
  listed _ _ h := h
  entry _ _ _ h := h
  session _ _ _ _ h := h
  nextProbe _ _ h := h
  template _ _ _ h := h
  rebuilt _ h := h
  linkChanged _ _ _ h := h.trans (sameAccount_of_keeps (by simp) (by simp) (by simp))
  sent _ _ h := h
  rxJoined _ _ _ h := h
  portCleared _ h := h
  announcementsDropped _ h := h
  probesRequeued _ h := h.trans (sameAccount_of_keeps (by simp) (by simp) (by simp))
  deliveriesReset s h := h.trans (sameAccount_of_keeps rfl (by simp [resetDeliveries]) rfl)
  sending s h := h.trans (sameAccount_sendingStep s)
  advance s k h := h.trans ⟨fun _ _ => rfl, rfl, by simp [advance]⟩
  hit s r place h _ _ := h.trans (sameAccount_of_keeps (by simp) (by simp) (by unfold touchRule; split <;> rfl))
  overflow s place h := h.trans (sameAccount_of_keeps (by simp) (by simp) (by unfold touchRule; split <;> rfl))
  period s c h := h.trans (sameAccount_of_keeps (by simp) (by simp) (by unfold expirePeriod; dsimp only; split <;> rfl))

/-! What a hold, the settling of a frame, and the other operations add to the accounts. -/

theorem dropUnkept_length {m : Nat} {q : List HeldFrame} (h : m ≤ unkeptCount q) :
    (dropUnkept m q).length + m = q.length := by
  induction q generalizing m with
  | nil =>
    obtain rfl : m = 0 := Nat.le_zero.mp h
    rfl
  | cons x q ih =>
    cases m with
    | zero => rfl
    | succ m =>
      unfold dropUnkept
      split
      · rename_i hkept
        have := ih (m := m + 1) (by simpa [unkeptCount, hkept] using h)
        simp only [List.length_cons]
        omega
      · rename_i hkept
        have := ih (m := m) (by simpa [unkeptCount, hkept] using h)
        simp only [List.length_cons]
        omega

/-- A hold displaces records that may be displaced. -/
theorem le_unkeptCount_of_holdDecision {s : State} {len m : Nat} (h : holdDecision s len = some m) :
    m ≤ unkeptCount s.hold.queue := by
  unfold holdDecision at h
  split at h
  · cases h
  · split at h
    · have hmem := List.mem_of_find?_eq_some h
      exact Nat.lt_succ_iff.mp (List.mem_range.mp hmem)
    · split at h
      · exact Option.some.inj h ▸ Nat.zero_le _
      · cases h

theorem removeInFlight_length {q : List HeldFrame} (h : inFlightCount q ≠ 0) :
    (removeInFlight q).length + 1 = q.length := by
  induction q with
  | nil => exact absurd rfl h
  | cons x q ih =>
    unfold removeInFlight
    split
    · rfl
    · rename_i hx
      rw [inFlightCount_cons, if_neg hx, Nat.zero_add] at h
      simpa using ih h

/-- Both accounts by the values of the counters they speak of. -/
theorem balanced_iff_get {s t : State} : Balanced s t ↔
    t.counters.get (.settled .discarded) + t.counters.get (.settled .answered)
        + t.counters.get (.settled .absorbed) + t.counters.get (.settled .held)
        + (if t.classifier.current.isSome then 1 else 0) + s.counters.get .framesTaken =
      s.counters.get (.settled .discarded) + s.counters.get (.settled .answered)
        + s.counters.get (.settled .absorbed) + s.counters.get (.settled .held)
        + (if s.classifier.current.isSome then 1 else 0) + t.counters.get .framesTaken
    ∧ t.counters.get .delivered + t.counters.get .displaced + t.counters.get .cutDiscarded
        + t.hold.queue.length + s.counters.get (.settled .held) =
      s.counters.get .delivered + s.counters.get .displaced + s.counters.get .cutDiscarded
        + s.hold.queue.length + t.counters.get (.settled .held) := Iff.rfl

theorem balanced_of_same {s t : State} (h : SameAccount s t) : Balanced s t := by
  obtain ⟨hcounters, hqueue, hcurrent⟩ := h
  simp [balanced_iff_get, hcounters _ (.settled _), hcounters _ .framesTaken, hcounters _ .delivered,
    hcounters _ .displaced, hcounters _ .cutDiscarded, hcurrent, hqueue]

theorem get_settle {d : Disposition} {s : State} (h : s.counters.get (.settled d) + 1 ≤ max32) (c : Counter) :
    (settle d s).counters.get c = s.counters.get c + if .settled d = c then 1 else 0 := by
  rw [settle_eq, (checkDrained_keeps _).2.2.2.2.2.2.2.2.1]
  split
  · rename_i hc
    exact hc ▸ get_count_self h
  · rename_i hc
    exact get_count_of_ne hc 1 s

theorem settle_current (d : Disposition) (s : State) : (settle d s).classifier.current = none := by
  simp [settle]

/-- The frame in hand settled, not by a hold. -/
theorem balanced_settled {s t u : State} {d : Disposition} (hand : FrameInHand s t)
    (hroom : t.counters.get (.settled d) + 1 ≤ max32) (hd : d ≠ .held) (h : SameAccount t u) :
    Balanced s (settle d u) := by
  obtain ⟨hcounters, hqueue, htaken⟩ := hand
  have hsettled := fun d => hcounters _ (.settled d) nofun
  obtain ⟨hcounters', hqueue', _⟩ := h
  have hget := get_settle (d := d) (s := u) (by rwa [hcounters' _ (.settled d)])
  simp only [balanced_iff_get, hget, settle_current, settle_keeps, hqueue', hqueue, hcounters' _ (.settled _),
    hcounters' _ .framesTaken, hcounters' _ .delivered, hcounters' _ .displaced, hcounters' _ .cutDiscarded,
    hsettled, hcounters _ .delivered nofun, hcounters _ .displaced nofun,
    hcounters _ .cutDiscarded nofun]
  cases d
  case held => exact absurd rfl hd
  all_goals simp; omega

/-- The frame in hand settled after its hold was asked for. -/
theorem balanced_heldSettled {s t u : State} {b : Bool} (hand : FrameInHand s t)
    (hroom : ∀ d, t.counters.get (.settled d) + 1 ≤ max32) (h : HoldPending t b u) :
    Balanced s (settle (if b then .held else .discarded) u) := by
  obtain ⟨hcounters, hqueue, htaken⟩ := hand
  have hsettled := fun d => hcounters _ (.settled d) nofun
  obtain ⟨hcounters', hheld⟩ := h
  have hsettled' := fun d => hcounters' _ (.settled d) nofun
  have hget := get_settle (d := if b then .held else .discarded) (s := u)
    ((hsettled' _).symm ▸ hroom _)
  rw [hcounters _ .displaced nofun, hqueue] at hheld
  simp only [balanced_iff_get, hget, settle_current, settle_keeps, hsettled',
    hcounters' _ .framesTaken nofun, hcounters' _ .delivered nofun, hcounters' _ .cutDiscarded nofun,
    hsettled, hcounters _ .delivered nofun, hcounters _ .cutDiscarded nofun]
  cases b <;> simp at hheld ⊢ <;> omega

/-- A hold asked for. -/
theorem holdPending_requestHold {s t : State} (f : List Byte) (source : HoldSource) (kept : Bool)
    (hroom : s.counters.get .displaced + s.hold.queue.length ≤ max32) (h : SameAccount s t) :
    HoldPending s (requestHold f source kept t).accepted (requestHold f source kept t).state := by
  obtain ⟨hcounters, hqueue, _⟩ := h
  unfold requestHold
  split
  · obtain ⟨hsame, _, _⟩ := sameAccount_count .holdRefused 1 t rfl
    refine ⟨fun c hc _ => (hsame c hc).trans (hcounters c hc), ?_⟩
    rw [hsame _ .displaced, hcounters _ .displaced]
    exact congrArg _ hqueue
  · rename_i m hm
    have hunkept := le_unkeptCount_of_holdDecision hm
    have hlength := dropUnkept_length hunkept
    have hroom' : t.counters.get .displaced + m ≤ max32 := by rw [hcounters _ .displaced]; omega
    have hdisplaced : (acceptHold f source kept m t).counters.get .displaced = t.counters.get .displaced + m :=
      get_count_self (s := t) hroom'
    have hjoined : (acceptHold f source kept m t).hold.queue.length = (dropUnkept m t.hold.queue).length + 1 := by
      simp [acceptHold, updateLevel, count]
    obtain ⟨hsent, hsentQueue, _⟩ := sameAccount_sendingStep (acceptHold f source kept m t)
    refine ⟨fun c hc hne => ?_, ?_⟩
    · rw [hsent c hc, ← hcounters c hc]
      exact get_count_of_ne (Ne.symm hne) m t
    · rw [hsent _ .displaced, hsentQueue, hdisplaced, hjoined, ← hcounters _ .displaced, ← hqueue, Bool.toNat_true]
      omega

/-! The other operations that move an account. -/

theorem frameInHand_self {s : State} (h : s.classifier.current.isSome = true) : FrameInHand s s :=
  ⟨fun _ _ _ => rfl, rfl, by simp [h]⟩

theorem frameInHand_dequeueFrame {s t : State} (rest : List (List Byte)) (h : SameAccount s t)
    (hcurrent : t.classifier.current = none) (hroom : s.counters.get .framesTaken + 1 ≤ max32) :
    FrameInHand s (dequeueFrame rest t) := by
  obtain ⟨hcounters, hqueue, hsame⟩ := h
  have htaken : (dequeueFrame rest t).counters.get .framesTaken = t.counters.get .framesTaken + 1 :=
    get_count_self (c := .framesTaken) (n := 1) (s := t) (by rwa [hcounters _ .framesTaken])
  refine ⟨fun c hc hne => (get_count_of_ne (Ne.symm hne) 1 t).trans (hcounters c hc), hqueue, ?_⟩
  rw [htaken, hcounters _ .framesTaken, ← hsame, hcurrent]
  rfl

theorem balanced_beginClassification {s t : State} (f : List Byte) (hand : FrameInHand s t) :
    Balanced s (beginClassification f t) := by
  obtain ⟨hcounters, hqueue, htaken⟩ := hand
  have hsettled := fun d => hcounters _ (.settled d) nofun
  have hsame : (beginClassification f t).counters = t.counters := rfl
  have hcurrent : (beginClassification f t).classifier.current.isSome = true := rfl
  have hhold : (beginClassification f t).hold = t.hold := rfl
  simp only [balanced_iff_get, hsame, hcurrent, hhold, hqueue, hsettled,
    hcounters _ .delivered nofun, hcounters _ .displaced nofun, hcounters _ .cutDiscarded nofun]
  simp
  omega

/-- The oldest frame is taken into classification, or settled at once. -/
theorem balanced_takeFrame {s t : State} (hfar : farFromEnd s) (h : SameAccount s t) : Balanced s (takeFrame t) := by
  obtain ⟨hends, hbound⟩ := hfar
  unfold takeFrame
  split
  · rename_i f rest hcurrent hbuffer
    have hand := frameInHand_dequeueFrame rest h hcurrent (by have := hends .framesTaken; omega)
    have hroom : ∀ d, (dequeueFrame rest t).counters.get (.settled d) + 1 ≤ max32 := fun d => by
      rw [hand.1 _ (.settled d) nofun]
      have := hends (.settled d)
      omega
    split
    case h_1 => exact balanced_settled hand (hroom _) nofun (.refl _)
    case h_5 =>
      refine balanced_heldSettled hand hroom (holdPending_requestHold f _ false ?_ (.refl _))
      rw [hand.1 _ .displaced nofun, hand.2.1]
      have := hends .displaced
      omega
    all_goals exact balanced_beginClassification f hand
  · exact balanced_of_same h

theorem Balanced.trans_same {s t u : State} (h : Balanced s t) (h' : SameAccount t u) : Balanced s u := by
  obtain ⟨hcounters, hqueue, hcurrent⟩ := h'
  have hsettled := fun d => hcounters _ (.settled d)
  rw [balanced_iff_get] at *
  simpa only [hsettled, hcounters _ .framesTaken, hcounters _ .delivered, hcounters _ .displaced,
    hcounters _ .cutDiscarded, hcurrent, hqueue] using h

/-- Records that leave the hold queue are counted under a count of those that have left it. -/
theorem balanced_departed {s t u : State} {c : Counter} {n : Nat} (hc : c = .delivered ∨ c = .cutDiscarded)
    (hroom : s.counters.get c + n ≤ max32) (h : SameAccount s t) (hcounters : u.counters = (count c n t).counters)
    (hqueue : u.hold.queue.length + n = t.hold.queue.length) (hcurrent : u.classifier.current = t.classifier.current) :
    Balanced s u := by
  obtain ⟨hsame, hlength, htaken⟩ := h
  have hcount : InAccount c := by rcases hc with rfl | rfl <;> constructor
  have hraised := get_count_self (c := c) (n := n) (s := t) (by rwa [hsame c hcount])
  have hother : ∀ c', InAccount c' → c ≠ c' → u.counters.get c' = s.counters.get c' := fun c' hc' hne => by
    rw [hcounters, get_count_of_ne hne, hsame c' hc']
  rw [← hcounters, hsame c hcount] at hraised
  have hsettled := fun d => hother _ (.settled d) (by rcases hc with rfl | rfl <;> simp)
  have hframes := hother _ .framesTaken (by rcases hc with rfl | rfl <;> simp)
  have hdisplaced := hother _ .displaced (by rcases hc with rfl | rfl <;> simp)
  rw [balanced_iff_get, hcurrent, htaken, hframes, hdisplaced]
  simp only [hsettled, true_and]
  rcases hc with rfl | rfl
  · rw [hraised, hother _ .cutDiscarded nofun]
    omega
  · rw [hraised, hother _ .delivered nofun]
    omega

theorem balanced_takeDeliverAnswer {s t : State} (hroom : s.counters.get .delivered + 1 ≤ max32)
    (h : SameAccount s t) : Balanced s (takeDeliverAnswer t) := by
  have hdone : Balanced s (takeDeliverDone t) := by
    unfold takeDeliverDone
    split
    · exact balanced_of_same h
    · split
      · exact balanced_of_same h
      · rename_i hflight
        exact balanced_departed (.inl rfl) hroom h rfl (removeInFlight_length hflight) rfl
  exact (hdone.trans_same (sameAccount_sendingStep _)).trans_same (sameAccount_checkDrained _)

theorem balanced_takeFall {s t : State} (hroom : s.counters.get .cutDiscarded + s.hold.queue.length ≤ max32)
    (h : SameAccount s t) : Balanced s (takeFall t) := by
  have hfilter : SameAccount s (filterHostup false t) := h
  unfold takeFall
  split
  · unfold hostupFall
    split
    · split
      · exact balanced_of_same hfilter
      · exact balanced_of_same hfilter
    · split
      · exact balanced_of_same (hfilter.trans (sameAccount_of_keeps (by simp) (by simp) (by simp)))
      · exact balanced_of_same hfilter
    · refine balanced_departed (.inr rfl) (n := t.hold.queue.length) (by rwa [h.2.1]) hfilter ?_ ?_ ?_
      · simp [cutReturn, endReturn]
      · simp [cutReturn, endReturn]
      · simp [cutReturn, endReturn]
    all_goals exact balanced_of_same hfilter
  · exact balanced_of_same h

/-- A step zeroes the counters or moves both sides of each account by as much. -/
theorem passage_balanced {s : State} (hfar : farFromEnd s) :
    Passage (SameAccount s) (HoldPending s) (fun t => t.counters = zeroCounters ∨ Balanced s t)
      (s.classifier.current.isSome = true) where
  toOrdinary := ordinary_sameAccount s
  hold t f source kept h := holdPending_requestHold f source kept (by have := hfar.1 .displaced; have := hfar.2; omega) h
  heldReport t b r h := h.trans (sameAccount_of_keeps (by simp) (by simp) (by simp))
  heldFree _ _ _ h := h
  heldSession _ _ _ _ _ h := h
  classified t c hc h := by rw [← h.2.2, hc]; rfl
  heldSettled t b hcurrent h :=
    .inr (balanced_heldSettled (frameInHand_self hcurrent) (fun d => by have := hfar.1 (.settled d); omega) h)
  settled t d hcurrent hd h :=
    .inr (balanced_settled (frameInHand_self hcurrent) (by have := hfar.1 (.settled d); omega) hd h)
  done t h := .inr (balanced_of_same h)
  reset _ _ _ _ := .inl rfl
  zeroed _ _ := .inl rfl
  cleared _ _ _ _ := .inl rfl
  fall t h := .inr (balanced_takeFall (by have := hfar.1 .cutDiscarded; have := hfar.2; omega) h)
  delivered t h := .inr (balanced_takeDeliverAnswer (by have := hfar.1 .delivered; omega) h)
  frame t h := .inr (balanced_takeFrame hfar h)

/-- Settles O12: the frames' account is one side of what a step balances. -/
theorem stepAccountsForFrames : Obligations.StepAccountsForFrames := fun s t hfar h =>
  ((passage_balanced hfar).step s t (.refl s) h).imp id And.left

/-- Settles O13: the holds' account is the other side. -/
theorem stepAccountsForHolds : Obligations.StepAccountsForHolds := fun s t hfar h =>
  ((passage_balanced hfar).step s t (.refl s) h).imp id And.right

end Sys2Proof.Proofs
end

section
/-! PROOFS. The queue, time and the own events (O1 to O4), and the invariants after reset (O11). -/

namespace Sys2Proof.Proofs

open Sys2Proof Sys2Proof.Machine

/-- Settles O1: a step is defined by the front of the queue. -/
theorem stepRunsFrontCommand : Obligations.StepRunsFrontCommand := fun _ _ _ => rfl

/-- Settles O4: the reset is written out, and State.reset evaluates. -/
theorem fullResetLeavesResetContents : Obligations.FullResetLeavesResetContents := by
  refine ⟨fun hcsLow hostupHigh s => rfl, rfl, rfl, rfl, rfl, rfl, rfl, rfl, rfl, rfl, rfl, rfl, rfl, rfl, rfl, rfl, rfl,
    rfl, rfl, rfl, rfl, rfl, rfl, rfl, rfl, rfl, rfl, rfl, rfl, rfl, zeroCounters_get⟩

/-- The contents after reset are those of a full reset at idle lines. -/
theorem reset_eq_fullReset : State.reset = fullReset false false State.reset := rfl

/-- Settles O11: a full reset makes each invariant true. -/
theorem invariantsHoldAtReset : Obligations.InvariantsHoldAtReset := by
  unfold Obligations.InvariantsHoldAtReset
  rw [reset_eq_fullReset]
  exact ⟨kept_pinsOk.reset _ _ _, kept_holdOk.reset _ _ _, kept_queuesOk.reset _ _ _, kept_tablesOk.reset _ _ _,
    kept_wakeOk.reset _ _ _, kept_sessionsOk.reset _ _ _⟩

/-! What each command does to the queue and to the time base. -/

/-- The queue and the time base stand. -/
def SameClock (s t : State) : Prop := t.pending = s.pending ∧ t.time = s.time

theorem sameClock_classStep (k : ClassStep) (c : Classification) (s : State) : SameClock s (classStep k c s) := by
  cases k with
  | length => simp [SameClock, classStep, stepLength]
  | vlan => simp [SameClock, classStep, stepVlan]
  | destination => simp [SameClock, classStep, stepDestination]
  | session => simp [SameClock, classStep]
  | responder => simp [SameClock, classStep]
  | rule => simp [SameClock, classStep]
  | default => simp [SameClock, classStep]

theorem execParts_sameClock : ExecParts SameClock where
  same _ := ⟨rfl, rfl⟩
  lineChange _ _ := by simp [SameClock]
  rise _ := by simp [SameClock]
  fall _ := by simp [SameClock]
  hcsFall _ := by simp [SameClock]
  hcsRise _ _ := by simp [SameClock]
  busy _ := by simp [SameClock]
  request _ _ _ _ := by simp [SameClock]
  statusClear _ _ := by simp [SameClock]
  record _ _ := by simp [SameClock]
  recordError _ := ⟨rfl, rfl⟩
  frame _ := by simp [SameClock]
  classify s c _ := sameClock_classStep c.step c s
  period _ _ := by simp [SameClock]
  margin _ _ := by simp [SameClock]
  lease _ _ := by simp [SameClock]
  report _ _ := by simp [SameClock]
  due _ _ := by simp [SameClock]
  probe _ _ := by simp [SameClock]
  response _ := by simp [SameClock]
  gap _ := by simp [SameClock]
  claim _ := by simp [SameClock]

theorem sameClock_of_not_reset {c : Instr} (h : ∀ a b, c ≠ .fullReset a b) (s : State) :
    ∃ t, exec c s = .next t ∧ SameClock s t :=
  execParts_sameClock.exec c s (fun a b hc => absurd hc (h a b))

/-- Settles O3: a full reset sets the time base to 0, and the operations of every other command leave it. -/
theorem everyCommandAnswersNext : Obligations.EveryCommandAnswersNext := by
  intro c s
  by_cases hreset : ∃ a b, c = .fullReset a b
  · obtain ⟨a, b, rfl⟩ := hreset
    exact ⟨_, rfl, rfl, .inr ⟨a, b, rfl, rfl⟩⟩
  · obtain ⟨t, ht, hpending, htime⟩ := sameClock_of_not_reset (fun a b hc => hreset ⟨a, b, hc⟩) s
    exact ⟨t, ht, hpending, .inl htime⟩

/-! The own events. -/

/-- An own event is one of a block. -/
theorem mem_ownEvents {c : Instr} {s : State} : c ∈ ownEvents s ↔
    c ∈ classifierEvents s ∨ c ∈ hostupEvents s ∨ c ∈ wakeEvents s ∨ c ∈ periodEvents s
      ∨ (∃ i e, (i, e) ∈ occupied s.responder.entries ∧ c ∈ entryEvents s i e)
      ∨ (∃ i x, (i, x) ∈ occupied s.keeper.sessions ∧ c ∈ sessionEvents s i x) := by
  simp [ownEvents]

theorem takeRise_of_not_own {s : State} (h : .hostupRiseTaken ∉ ownEvents s) : takeRise s = s := by
  unfold takeRise
  refine if_neg fun ⟨hready, hline⟩ => h (mem_ownEvents.mpr (.inr (.inl ?_)))
  simp [hostupEvents, hready, hline]

theorem takeFall_of_not_own {s : State} (h : .hostupFallTaken ∉ ownEvents s) : takeFall s = s := by
  unfold takeFall
  refine if_neg fun ⟨hready, hline⟩ => h (mem_ownEvents.mpr (.inr (.inl ?_)))
  simp [hostupEvents, hready, hline]

theorem takeFrame_of_not_own {s : State} (h : .frameTaken ∉ ownEvents s) : takeFrame s = s := by
  unfold takeFrame
  split
  · rename_i f rest hcurrent hbuffer
    refine absurd (mem_ownEvents.mpr (.inl ?_)) h
    simp [classifierEvents, hcurrent, hbuffer]
  · rfl

theorem takeResponse_of_not_own {s : State} (h : .wakeResponseExpiry ∉ ownEvents s) : takeResponse s = s :=
  if_neg fun hready => h (mem_ownEvents.mpr (.inr (.inr (.inl (by simp [wakeEvents, hready])))))

theorem takeGap_of_not_own {s : State} (h : .retryGapExpiry ∉ ownEvents s) : takeGap s = s :=
  if_neg fun hready => h (mem_ownEvents.mpr (.inr (.inr (.inl (by simp [wakeEvents, hready])))))

theorem takeClaim_of_not_own {s : State} (h : .claimWindowExpiry ∉ ownEvents s) : takeClaim s = s :=
  if_neg fun hready => h (mem_ownEvents.mpr (.inr (.inr (.inl (by simp [wakeEvents, hready])))))

theorem takePeriod_of_not_own {s : State} {cls : PeriodClass} (h : .periodExpiry cls ∉ ownEvents s) :
    takePeriod cls s = s :=
  if_neg fun hready => h (mem_ownEvents.mpr (.inr (.inr (.inr (.inl (by cases cls <;> simp [periodEvents, hready]))))))

theorem atStep_of_not_own {s : State} {k : ClassStep} (h : stepEvent k ∉ ownEvents s) :
    atStep k (classStep k) s = s := by
  refine atStep_of_ne _ fun c hc hk => h (mem_ownEvents.mpr (.inl ?_))
  simp [classifierEvents, hc, hk]

theorem mem_ownEvents_of_entry {c : Instr} {s : State} {i : Nat} {e : IdentityEntry}
    (he : lookup s.responder.entries i = some e) (h : c ∈ entryEvents s i e) : c ∈ ownEvents s :=
  mem_ownEvents.mpr (.inr (.inr (.inr (.inr (.inl ⟨i, e, mem_occupied he, h⟩)))))

theorem mem_ownEvents_of_session {c : Instr} {s : State} {i : Nat} {x : Session}
    (hx : lookup s.keeper.sessions i = some x) (h : c ∈ sessionEvents s i x) : c ∈ ownEvents s :=
  mem_ownEvents.mpr (.inr (.inr (.inr (.inr (.inr ⟨i, x, mem_occupied hx, h⟩)))))

theorem takeMargin_of_not_own {s : State} {i : Nat} (h : .leaseMarginReached i ∉ ownEvents s) : takeMargin i s = s := by
  unfold takeMargin
  split
  · rename_i e he
    exact if_neg fun hready => h (mem_ownEvents_of_entry he (by simp [entryEvents, hready]))
  · rfl

theorem takeLeaseDeadline_of_not_own {s : State} {i : Nat} (h : .leaseDeadline i ∉ ownEvents s) :
    takeLeaseDeadline i s = s := by
  unfold takeLeaseDeadline
  split
  · rename_i e he
    exact if_neg fun hready => h (mem_ownEvents_of_entry he (by simp [entryEvents, hready]))
  · rfl

theorem takeReportDeadline_of_not_own {s : State} {i : Nat} (h : .reportDeadline i ∉ ownEvents s) :
    takeReportDeadline i s = s := by
  unfold takeReportDeadline
  split
  · rename_i e he
    split
    · rename_i r hready
      exact absurd (mem_ownEvents_of_entry he (by simp [entryEvents, hready])) h
    · rfl
  · rfl

theorem takeDue_of_not_own {s : State} {i : Nat} (h : .dueExpiry i ∉ ownEvents s) : takeDue i s = s := by
  unfold takeDue
  split
  · rename_i x hx
    exact if_neg fun hready => h (mem_ownEvents_of_session hx (by simp [sessionEvents, hready]))
  · rfl

theorem takeProbeTimer_of_not_own {s : State} {i : Nat} (h : .probeTimerExpiry i ∉ ownEvents s) :
    takeProbeTimer i s = s := by
  unfold takeProbeTimer
  split
  · rename_i x hx
    exact if_neg fun hready => h (mem_ownEvents_of_session hx (by simp [sessionEvents, hready]))
  · rfl

theorem exec_stepEvent_of_not_own {s : State} {k : ClassStep} (h : stepEvent k ∉ ownEvents s) :
    exec (stepEvent k) s = .next s := by
  rw [exec_stepEvent, atStep_of_not_own h]

/-- With no command waiting, the part puts a ready own event on the queue. -/
theorem idle_of_own {s : State} (h : ownEvents s ≠ []) :
    ∃ e ∈ ownEvents s, ∃ n, idle s = { s with pending := [e], freeCount := n } := by
  unfold idle
  split
  · contradiction
  · rename_i e he
    exact ⟨e, by simp [he], s.freeCount, rfl⟩
  · rename_i e es hne he
    refine ⟨_, ?_, s.freeCount + 1, rfl⟩
    have hlt : Config.eventChoice s.freeCount % (es.length + 1) < (e :: es).length := Nat.mod_lt _ (Nat.succ_pos _)
    rw [List.getD_eq_getElem _ _ hlt, he]
    exact List.getElem_mem hlt

/-- Settles O2: an idle step puts an own event on the queue or lets 1 ms pass, and an own event that is not ready finds
its condition false. -/
theorem ownEventsAndTime : Obligations.OwnEventsAndTime := by
  refine ⟨fun s hpending => ⟨fun hnone => ?_, fun hown => ?_⟩, fun s c hc hkind => ?_⟩
  · simp [step, hpending, idle, hnone, tick]
  · obtain ⟨e, he, n, hidle⟩ := idle_of_own hown
    exact ⟨e, he, n, by simp [step, hpending, hidle]⟩
  · rcases hkind with rfl | rfl | rfl | rfl | rfl | rfl | ⟨cls, rfl⟩ | rfl | rfl | rfl | rfl | rfl | rfl | rfl
      | ⟨i, rfl | rfl | rfl | rfl | rfl⟩
    · exact congrArg _ (takeRise_of_not_own hc)
    · exact congrArg _ (takeFall_of_not_own hc)
    · exact congrArg _ (takeFrame_of_not_own hc)
    · exact congrArg _ (takeResponse_of_not_own hc)
    · exact congrArg _ (takeGap_of_not_own hc)
    · exact congrArg _ (takeClaim_of_not_own hc)
    · exact congrArg _ (takePeriod_of_not_own hc)
    · exact exec_stepEvent_of_not_own (k := .length) hc
    · exact exec_stepEvent_of_not_own (k := .vlan) hc
    · exact exec_stepEvent_of_not_own (k := .destination) hc
    · exact exec_stepEvent_of_not_own (k := .session) hc
    · exact exec_stepEvent_of_not_own (k := .responder) hc
    · exact exec_stepEvent_of_not_own (k := .rule) hc
    · exact exec_stepEvent_of_not_own (k := .default) hc
    · exact congrArg _ (takeMargin_of_not_own hc)
    · exact congrArg _ (takeLeaseDeadline_of_not_own hc)
    · exact congrArg _ (takeReportDeadline_of_not_own hc)
    · exact congrArg _ (takeDue_of_not_own hc)
    · exact congrArg _ (takeProbeTimer_of_not_own hc)

end Sys2Proof.Proofs
end

section
/-! PROOFS. Notices, the end of a return, cause reports, the HOSTUP filter and the calling sequence (O14 to O19, O60). -/

namespace Sys2Proof.Proofs

open Sys2Proof Sys2Proof.Machine

/-! Notices and state changes. -/

theorem queueNotice_eq (n : Notice) (s : State) : queueNotice n s = { s with host := (queueNotice n s).host } := by
  unfold queueNotice
  split <;> rfl

/-- A state change as its controller and its notice (R2, R3). -/
theorem changeState_eq (new : StandIn) (reason : Reason) (s : State) :
    changeState new reason s =
      { s with
        controller := { s.controller with standIn := new, divert := new != .attended }
        host := afterChange s new reason } := by
  unfold changeState
  rw [queueNotice_eq]
  rfl

/-- The notice of a state change reads the host port, the time and the state. -/
theorem afterChange_congr {s t : State} (hhost : t.host = s.host) (htime : t.time = s.time)
    (hst : t.controller.standIn = s.controller.standIn) (new : StandIn) (reason : Reason) :
    afterChange t new reason = afterChange s new reason := by
  unfold afterChange queueNotice
  rw [hhost, htime, hst]
  split <;> rfl

/-- Settles O14: by whether the notice queue has room. -/
theorem noticeQueuedOrLost : Obligations.NoticeQueuedOrLost := by
  intro n s
  refine ⟨fun hroom => if_pos hroom, fun hfull hlost => ?_, fun _ _ => rfl, fun _ _ => rfl⟩
  have hcount : satAdd 65535 s.host.lost 1 = if s.host.lost < 65535 then s.host.lost + 1 else 65535 := by
    unfold satAdd
    split <;> omega
  rw [← hcount]
  exact if_neg (Nat.not_lt.mpr hfull)

/-- What drainComplete says (R21). -/
theorem drainComplete_iff (s : State) : drainComplete s = true ↔
    s.controller.standIn = .returning ∧ s.hold.queue = [] ∧ s.port.rxBuffer = [] ∧ s.classifier.current = none := by
  simp [drainComplete, and_assoc]

/-- The end of a return (R21, R22). -/
theorem endReturn_eq (reason : Reason) (s : State) : endReturn reason s =
    { s with
      controller := { s.controller with standIn := .attended, divert := false, drain := false }
      host := afterChange s .attended reason } := by
  rw [endReturn, changeState_eq]
  exact congrArg (fun host : HostPort =>
      { s with controller := { s.controller with standIn := .attended, divert := false, drain := false }, host := host })
    (afterChange_congr (s := s) (t := { s with controller := { s.controller with drain := false } }) rfl rfl rfl _ _)

theorem checkDrained_of_drained {s : State} (h : drainComplete s = true) : checkDrained s =
    { s with
      controller := { s.controller with standIn := .attended, divert := false, drain := false }
      host := afterChange s .attended .drained } := by
  rw [checkDrained, if_pos h, endReturn_eq]

theorem checkDrained_of_not_drained {s : State} (h : drainComplete s ≠ true) : checkDrained s = s := if_neg h

/-- Settles O15: the return ends exactly where drainComplete holds. -/
theorem returnEndsWhenDrained : Obligations.ReturnEndsWhenDrained := by
  refine fun s => ⟨fun hst hqueue hbuffer hcurrent => ?_, fun hleft => ?_⟩
  · exact checkDrained_of_drained ((drainComplete_iff s).mpr ⟨hst, hqueue, hbuffer, hcurrent⟩)
  · refine checkDrained_of_not_drained fun h => ?_
    obtain ⟨hst, hqueue, hbuffer, hcurrent⟩ := (drainComplete_iff s).mp h
    simp [hst, hqueue, hbuffer, hcurrent] at hleft

/-! Cause reports. -/

theorem causeOrder_sorted : causeOrder.Pairwise (fun c d => c.priority ≤ d.priority) := by decide

/-- The primary cause of a set that has a cause is the one of highest priority in it (R130). -/
theorem primary_spec {e : CauseSet} {c : Cause} (h : e.has c = true) :
    ∃ p, e.primary = some p ∧ e.has p = true ∧ ∀ d, e.has d = true → p.priority ≤ d.priority := by
  obtain ⟨p, hp⟩ := Option.isSome_iff_exists.mp (primary_isSome h)
  obtain ⟨hhas, before, after, horder, hbefore⟩ := List.find?_eq_some_iff_append.mp hp
  refine ⟨p, hp, hhas, fun d hd => ?_⟩
  have hmem := mem_causeOrder d
  have hsorted := causeOrder_sorted
  rw [horder] at hmem hsorted
  rcases List.mem_append.mp hmem with hd' | hd'
  · have := hbefore d hd'
    simp [hd] at this
  · rcases List.mem_cons.mp hd' with rfl | hafter
    · exact le_rfl
    · exact (List.pairwise_cons.mp (List.pairwise_append.mp hsorted).2.1).1 d hafter

/-- Capturing changes the slots and the lock. -/
theorem capture_eq (e : Evidence) (w : WakeUnit) : capture e w =
    { w with slotA := (capture e w).slotA, slotB := (capture e w).slotB, lock := (capture e w).lock } := by
  unfold capture
  split
  · rfl
  · split <;> rfl

/-- A cause recorded that is not enabled. -/
theorem recordCause_not_enabled {r : Report} {now : Time} {w : WakeUnit} (h : causeEnabled w r.cause = false) :
    recordCause r now w =
      { w with
        record := { w.record with noted := w.record.noted.join r.cause }
        uncaptured := if w.lock then satAdd 65535 w.uncaptured 1 else w.uncaptured } := by
  simp [recordCause, h]

/-- The record after an enabled cause. -/
theorem recordCause_record {r : Report} {now : Time} {w : WakeUnit} (h : causeEnabled w r.cause = true) :
    (recordCause r now w).record = enableCause r.cause now { w.record with noted := w.record.noted.join r.cause } := by
  unfold recordCause
  dsimp only
  rw [if_pos h]
  split
  · rfl
  · rw [capture_eq]

/-- A cause recorded changes the record, the evidence and the uncaptured count. -/
theorem recordCause_eq (r : Report) (now : Time) (w : WakeUnit) : recordCause r now w =
    { w with
      record := (recordCause r now w).record, slotA := (recordCause r now w).slotA
      slotB := (recordCause r now w).slotB, lock := (recordCause r now w).lock
      uncaptured := (recordCause r now w).uncaptured } := by
  unfold recordCause
  dsimp only
  split
  · split
    · rfl
    · rw [capture_eq]
  · rfl

/-- A cause recorded with the lock set is counted as uncaptured (R135). -/
theorem recordCause_uncaptured_eq (r : Report) (now : Time) (w : WakeUnit) : (recordCause r now w).uncaptured =
    if w.lock then min 65535 (w.uncaptured + 1) else w.uncaptured := by
  unfold recordCause
  dsimp only
  split
  · split
    · rfl
    · rw [capture_eq]
  · rfl

/-- A cause recorded leaves the depth, the attempts and the outcome of the record. -/
theorem recordCause_record_eq (r : Report) (now : Time) (w : WakeUnit) : (recordCause r now w).record =
    { w.record with
      noted := w.record.noted.join r.cause, enabled := (recordCause r now w).record.enabled
      firstTime := (recordCause r now w).record.firstTime, primary := (recordCause r now w).record.primary } := by
  cases h : causeEnabled w r.cause
  · rw [recordCause_not_enabled h]
  · rw [recordCause_record h, enableCause]

/-- With the lock set nothing is captured. -/
theorem recordCause_locked {r : Report} {now : Time} {w : WakeUnit}
    (h : w.lock = true ∨ causeEnabled w r.cause = false) :
    (recordCause r now w).slotA = w.slotA ∧ (recordCause r now w).slotB = w.slotB
      ∧ (recordCause r now w).lock = w.lock := by
  unfold recordCause
  dsimp only
  rcases h with hlock | henabled
  · split
    · simp [hlock]
    · exact ⟨rfl, rfl, rfl⟩
  · rw [if_neg (by simp [henabled])]
    exact ⟨rfl, rfl, rfl⟩

/-- An enabled cause with the lock clear fills the first free slot. -/
theorem recordCause_captured {r : Report} {now : Time} {w : WakeUnit} (henabled : causeEnabled w r.cause = true)
    (hlock : w.lock = false) :
    (w.slotA = none → (recordCause r now w).slotA = some (evidenceOf r now) ∧ (recordCause r now w).slotB = w.slotB
        ∧ (recordCause r now w).lock = false)
      ∧ (w.slotA ≠ none → w.slotB = none → (recordCause r now w).slotA = w.slotA
        ∧ (recordCause r now w).slotB = some (evidenceOf r now) ∧ (recordCause r now w).lock = true) := by
  unfold recordCause
  refine ⟨fun hA => ?_, fun hA hB => ?_⟩
  · simp [henabled, hlock, capture, hA]
  · simp [henabled, hlock, capture, hA, hB]

/-- The entry to CALLING for an enabled cause (R13, R143). -/
theorem enterCalling_eq (s : State) : enterCalling s =
    { s with
      controller := { s.controller with standIn := .calling, divert := true }
      host := afterChange s .calling .called
      wake :=
        if s.wake.hostupFiltered = false then
          { s.wake with
            record := { s.wake.record with attempts := 1 }, wakereq := true,
            response := some { start := s.time, length := s.wake.policy.wakeResponse * 1000 },
            gap := none, claim := none, phase := .asserting }
        else if s.wake.claim.isSome then
          { s.wake with record := { s.wake.record with attempts := 0 }, phase := .claim }
        else
          { s.wake with
            record := { s.wake.record with attempts := 0 }, wakereq := false, response := none, gap := none,
            claim := some { start := s.time, length := s.wake.policy.claimWindow * 1000 }, phase := .claim } } := by
  rw [enterCalling, changeState_eq]
  unfold beginCalling
  cases hfiltered : s.wake.hostupFiltered
  · rfl
  · by_cases hclaim : s.wake.claim.isSome = true
    · simp [hfiltered, hclaim]
    · simp [hfiltered, hclaim]
      rfl

/-- A report outside a stand-in is recorded nowhere (R129). -/
theorem reportCause_of_serving {r : Report} {s : State} (h : s.controller.standIn.serving = true) :
    reportCause r s =
      if causeEnabled s.wake r.cause = true ∧ s.controller.standIn = .standing then
        enterCalling { s with wake := recordCause r s.time s.wake }
      else { s with wake := recordCause r s.time s.wake } := by
  simp [reportCause, h]

/-- Settles O16: recordCause by whether the cause is enabled and the lock set, and the entry to CALLING. -/
theorem causeReportRecorded : Obligations.CauseReportRecorded := by
  refine fun r s => ⟨reportCause_carried r s, fun hserving => ⟨recordCause r s.time s.wake,
    ⟨_, recordCause_eq r s.time s.wake, recordCause_record_eq r s.time s.wake⟩,
    fun henabled => ?_, fun henabled => ?_, recordCause_uncaptured_eq r s.time s.wake, recordCause_locked,
    fun henabled hlock => (recordCause_captured henabled hlock).1,
    fun henabled hlock => (recordCause_captured henabled hlock).2, fun hstays => ?_, fun henabled hst => ?_⟩⟩
  · rw [recordCause_not_enabled henabled]
    exact ⟨rfl, rfl, rfl⟩
  · rw [recordCause_record henabled]
    exact ⟨rfl, fun t ht => by simp [enableCause, ht], fun hnone => by simp [enableCause, hnone],
      primary_spec (join_has _ r.cause)⟩
  · rw [reportCause_of_serving hserving, if_neg]
    rintro ⟨henabled, hst⟩
    rcases hstays with hdisabled | hother
    · simp [henabled] at hdisabled
    · exact hother hst
  · rw [reportCause_of_serving hserving, if_pos ⟨henabled, hst⟩, enterCalling_eq,
      afterChange_congr (s := s) (t := { s with wake := recordCause r s.time s.wake }) rfl rfl rfl]
    simp only [recordCause_keeps]

/-! The HOSTUP filter. -/

/-- Settles O17: by whether the line has the level already. -/
theorem hostupLineChange : Obligations.HostupLineChange := by
  intro high s
  exact ⟨fun hne => congrArg _ (if_neg hne), fun heq => congrArg _ (if_pos heq)⟩

/-- The filter's event is ready where the line has held its new level for 20 ms (R141). -/
theorem hostupReady_of {s : State} {t₀ : Time} (hne : s.wake.hostupLine ≠ s.wake.hostupFiltered)
    (hsince : s.wake.hostupSince = some t₀) (helapsed : 20 ≤ elapsed s.time t₀) : hostupReady s = true := by
  simp [hostupReady, hne, hsince, helapsed]

/-- Settles O18: the filter's rise by state and phase. -/
theorem hostupRiseTaken : Obligations.HostupRiseTaken := by
  intro s t₀ hline hfiltered hsince helapsed
  have hready := hostupReady_of (by simp [hline, hfiltered]) hsince helapsed
  have hexec : exec .hostupRiseTaken s = .next (hostupRise (filterHostup true s)) :=
    congrArg _ (if_pos ⟨hready, hline⟩)
  rw [hexec]
  refine ⟨?_, ?_⟩
  · rintro (hst | hst | hst) <;> simp [hostupRise, filterHostup, hst]
  · rintro (hst | ⟨hst, hphase⟩)
    · simp [hostupRise, filterHostup, hst, startClaim, startTimer]
    · simp [hostupRise, filterHostup, hst, hphase, startClaim, startTimer]

/-- A return cut short (R22, R125). -/
theorem cutReturn_eq (s : State) : cutReturn s =
    { s with
      controller := { s.controller with standIn := .attended, divert := false, drain := false }
      hold := { queue := [], level := .below, forgotten := s.hold.forgotten + inFlightCount s.hold.queue }
      counters := s.counters.add .cutDiscarded s.hold.queue.length
      host := afterChange s .attended .cut } := by
  rw [cutReturn, endReturn_eq, afterChange_congr (s := s)
    (t := { count .cutDiscarded s.hold.queue.length s with
      hold := { queue := [], level := .below, forgotten := s.hold.forgotten + inFlightCount s.hold.queue } })
    rfl rfl rfl]
  rfl

/-- Settles O19: the filter's fall by state and phase. -/
theorem hostupFallTaken : Obligations.HostupFallTaken := by
  intro s t₀ hline hfiltered hsince helapsed
  have hready := hostupReady_of (by simp [hline, hfiltered]) hsince helapsed
  have hexec : exec .hostupFallTaken s = .next (hostupFall (filterHostup false s)) :=
    congrArg _ (if_pos ⟨hready, hline⟩)
  rw [hexec]
  refine ⟨?_, fun hst hphase => ?_, fun hst hphase => ?_, fun hst => ?_⟩
  · rintro (hst | hst | ⟨hst, hphase⟩)
    · simp [hostupFall, filterHostup, hst]
    · simp [hostupFall, filterHostup, hst]
    · simp [hostupFall, filterHostup, hst, hphase]
  · simp [hostupFall, filterHostup, hst, hphase, stopClaim]
  · simp [hostupFall, filterHostup, hst, hphase, startAttempt, startTimer, satAdd]
  · have hfall : hostupFall (filterHostup false s) = cutReturn (filterHostup false s) := by
      simp [hostupFall, filterHostup, hst]
    rw [hfall, cutReturn_eq, afterChange_congr (s := s) (t := filterHostup false s) rfl rfl rfl]
    rfl

/-! The calling sequence. -/

/-- The entry to RETURNING before the sending step. -/
theorem enterReturning_eq (reason : Reason) (outcome : WakeOutcome) (s : State) : ∃ u,
    enterReturning reason outcome s = checkDrained (sendingStep u) ∧ u.controller.standIn = .returning
      ∧ u.controller.depth = s.controller.depth ∧ u.hold = s.hold ∧ u.port = s.port
      ∧ u.classifier = markReached4 s.classifier := by
  refine ⟨_, rfl, ?_, ?_, ?_, ?_, ?_⟩ <;> simp [changeState_eq]

/-- The state after the entry to RETURNING (R17, R21). -/
theorem enterReturning_standIn (reason : Reason) (outcome : WakeOutcome) (s : State) :
    (enterReturning reason outcome s).controller.standIn =
      if s.hold.queue = [] ∧ s.port.rxBuffer = [] ∧ s.classifier.current = none then .attended else .returning := by
  obtain ⟨u, heq, hst, _, hhold, hport, hclassifier⟩ := enterReturning_eq reason outcome s
  have hdrained : drainComplete (sendingStep u) = true ↔
      s.hold.queue = [] ∧ s.port.rxBuffer = [] ∧ s.classifier.current = none := by
    rw [drainComplete_iff, sendingStep_queue, sendingStep_rxBuffer]
    simp [hst, hhold, hport, hclassifier, markReached4]
  rw [heq]
  split
  · rename_i hleft
    rw [checkDrained_of_drained (hdrained.mpr hleft)]
  · rename_i hleft
    rw [checkDrained_of_not_drained (mt hdrained.mp hleft)]
    simpa using hst

theorem sendingStep_txQueue (s : State) : (sendingStep s).port.txQueue = s.port.txQueue := by
  unfold sendingStep
  split <;> rfl

theorem enterReturning_txQueue (reason : Reason) (outcome : WakeOutcome) (s : State) :
    (enterReturning reason outcome s).port.txQueue = s.port.txQueue := by
  obtain ⟨u, heq, _, _, _, hport, _⟩ := enterReturning_eq reason outcome s
  rw [heq, (checkDrained_keeps _).2.2.2.2.2.2.2.1, sendingStep_txQueue, hport]

theorem timerReady_of {tm : Timer} {now : Time} (h : tm.length ≤ elapsed now tm.start) :
    timerReady (some tm) now = true := by
  simp [timerReady, Timer.expired, h]

/-- Settles O60: each timer finds its phase and its start. -/
theorem callingSequenceTimers : Obligations.CallingSequenceTimers := by
  intro s tm hexpired
  refine ⟨fun hst hphase htimer => ?_, fun hst hphase htimer hleft => ?_, fun hst hphase htimer hnone => ?_,
    fun hst hphase htimer => ?_⟩
  · have hready : responseReady s = true := by simp [responseReady, hst, hphase, htimer, timerReady_of hexpired]
    exact congrArg _ (if_pos hready)
  · have hready : gapReady s = true := by simp [gapReady, hst, hphase, htimer, timerReady_of hexpired]
    exact congrArg _ ((if_pos hready).trans (if_pos hleft))
  · have hready : gapReady s = true := by simp [gapReady, hst, hphase, htimer, timerReady_of hexpired]
    have hexec : exec .retryGapExpiry s = .next (giveUp s) :=
      congrArg _ ((if_pos hready).trans (if_neg (Nat.not_le.mpr hnone)))
    rw [hexec, giveUp, changeState_eq, afterChange_congr (s := s)
      (t := { s with wake := { s.wake with
        record := { s.wake.record with outcome := .lost }, wakereq := false, gap := none, phase := .none } })
      rfl rfl rfl]
    rfl
  · have hready : claimReady s = true := by
      rcases hst with hst | hst <;> simp [claimReady, hst, hphase, htimer, timerReady_of hexpired]
    have hexec : exec .claimWindowExpiry s = .next (enterReturning .selfReturn .selfReturn s) :=
      congrArg _ (if_pos hready)
    obtain ⟨hhost, hresponder, hkeeper, hwake⟩ := enterReturning_does s .selfReturn .selfReturn
    refine ⟨_, hexec, hwake, hkeeper, hresponder, hhost, enterReturning_standIn _ _ s, ?_,
      enterReturning_txQueue _ _ s⟩
    simp

end Sys2Proof.Proofs
end

section
/-! PROOFS. Numbers as bytes, and the parts of a string laid out from parts. -/

namespace Sys2Proof.Proofs

open Sys2Proof Sys2Proof.Machine

@[simp] theorem byte_toNat (n : Nat) : (byte n).toNat = n % 256 := by simp [byte]

@[simp] theorem be16_length (n : Nat) : (be16 n).length = 2 := rfl

@[simp] theorem be32_length (n : Nat) : (be32 n).length = 4 := rfl

@[simp] theorem checkBytes_length (l : List Byte) : (checkBytes l).length = 2 := rfl

@[simp] theorem at1_cons_zero (b : Byte) (l : List Byte) : at1 (b :: l) 0 = b.toNat := rfl

@[simp] theorem at1_cons_succ (b : Byte) (l : List Byte) (i : Nat) : at1 (b :: l) (i + 1) = at1 l i := rfl

@[simp] theorem at2_cons_succ (b : Byte) (l : List Byte) (i : Nat) : at2 (b :: l) (i + 1) = at2 l i := rfl

/-- A number of 16 bits is read back from its two bytes. -/
theorem at2_be16 {n : Nat} (h : n < 65536) (l : List Byte) : at2 (be16 n ++ l) 0 = n := by
  simp only [at2, be16, List.cons_append, at1_cons_zero, at1_cons_succ, byte_toNat]
  omega

/-- A number of 32 bits is read back from its four bytes. -/
theorem at4_be32 {n : Nat} (h : n < 4294967296) (l : List Byte) : at4 (be32 n ++ l) 0 = n := by
  simp only [at4, at2, be32, List.cons_append, at1_cons_zero, at1_cons_succ, byte_toNat]
  omega

/-- The part of a string after a part of a known length. -/
theorem slice_append {a b c : List Byte} {i n : Nat} (hi : a.length = i) (hn : b.length = n) :
    slice (a ++ (b ++ c)) i n = b := by
  subst hi hn
  simp [slice]

end Sys2Proof.Proofs
end

section
/-! PROOFS. The host link's transactions and the records of the station link (O20 to O25). -/

namespace Sys2Proof.Proofs

open Sys2Proof Sys2Proof.Machine

/-! The HCS fall. -/

theorem chooseFrame_outcome (h : HostPort) : (chooseFrame h).outcome = h.previous := by
  unfold chooseFrame
  split
  · rfl
  · split
    · rfl
    · split <;> rfl

/-- Settles O20: the cases of chooseFrame. -/
theorem hcsFallChoosesFrame : Obligations.HcsFallChoosesFrame := by
  refine fun s => ⟨fun hlow => congrArg _ (if_pos hlow), fun hhigh => ⟨chooseFrame s.host, ?_, chooseFrame_outcome _,
    fun tag hflight => ?_, fun r hflight hreply => ?_, fun n ns hflight hreply hnotices => ?_,
    fun hflight hreply hnotices => ?_⟩⟩
  · exact congrArg _ (if_neg (by simp [hhigh]))
  · simp [chooseFrame, hflight]
  · simp [chooseFrame, hflight, hreply]
  · simp [chooseFrame, hflight, hreply, hnotices]
  · simp [chooseFrame, hflight, hreply, hnotices]

/-! The judgement. -/

theorem judgeFrame_of_no_sync {busy : Bool} {clocked : List Byte} (h : at1 clocked 0 ≠ 0xA6) :
    judgeFrame busy clocked = .none := if_pos h

/-- Nothing clocked has no sync byte. -/
theorem at1_nil_ne_sync : at1 [] 0 ≠ 0xA6 := by decide

theorem checkGood_iff (clocked : List Byte) : checkGood clocked = true ↔
    at2 clocked 4 ≤ 1600
      ∧ slice clocked (6 + at2 clocked 4) 2 = checkBytes (clocked.take (6 + at2 clocked 4)) := by
  simp [checkGood]

/-- Settles O22: judgeFrame tests the cases in their order. -/
theorem judgementTakesFirstCase : Obligations.JudgementTakesFirstCase := by
  refine fun busy clocked => ⟨?_, fun hsync hshort => ?_, fun hsync hlength hbad => ?_,
    fun hsync hlength hbody hcheck => ?_⟩
  · rintro (rfl | hsync)
    · exact judgeFrame_of_no_sync at1_nil_ne_sync
    · exact judgeFrame_of_no_sync hsync
  · rw [judgeFrame, if_neg (not_not.mpr hsync), frameEnd, if_pos hshort]
  · have hgood : checkGood clocked = false := by
      rw [Bool.eq_false_iff, ne_eq, checkGood_iff]
      rintro ⟨hbody, hcheck⟩
      rcases hbad with hbad | hbad
      · omega
      · exact hbad hcheck
    rw [judgeFrame, if_neg (not_not.mpr hsync), if_neg (by unfold frameEnd; omega), if_pos hgood]
  · have hgood : checkGood clocked = true := (checkGood_iff clocked).mpr ⟨hbody, hcheck⟩
    rw [judgeFrame, if_neg (not_not.mpr hsync), if_neg (by unfold frameEnd; omega), if_neg (by simp [hgood])]

/-! The HCS rise. -/

/-- A rise that ends a transaction the device saw begin. -/
theorem exec_hcsRise {s : State} {clocked : List Byte} (hlow : s.host.hcsLow = true) (hseen : s.host.unseen = false) :
    exec (.hcsRise clocked) s =
      .next (takeJudged (judgeFrame (busyAfter clocked.length s) clocked) clocked (endTransaction clocked s)) := by
  have hrise : riseHcs clocked s =
      takeJudged (judgeFrame (busyAfter clocked.length s) clocked) clocked (endTransaction clocked s) := by
    simp [riseHcs, hlow, hseen]
  exact congrArg _ hrise

theorem takeJudged_of_not_taken {o : FrameOutcome} (h : o ≠ .taken) (clocked : List Byte) (s : State) :
    takeJudged o clocked s = countJudgement o (setPrevious o s) := if_neg h

theorem assembled_of_no_sync {clocked : List Byte} (h : at1 clocked 0 ≠ 0xA6) : assembled clocked = [] := if_pos h

/-- Settles O21: without a frame of the host's the rise only releases the frame out. -/
theorem hcsRiseReleasesFrame : Obligations.HcsRiseReleasesFrame := by
  intro s f clocked hlow hseen hout hsync
  have hexec : exec (.hcsRise clocked) s = .next (setPrevious .none (endTransaction clocked s)) := by
    rw [exec_hcsRise hlow hseen, judgeFrame_of_no_sync hsync, takeJudged_of_not_taken (o := .none) nofun]
    rfl
  rw [hexec]
  refine ⟨fun hwhole hkind => ?_, fun hwhole hkind => ?_, fun hcut => ?_⟩
  · simp [setPrevious, endTransaction, assembled_of_no_sync hsync, releaseFrame, hout, hwhole, hkind,
      HostPort.deliver, attnLevel]
  · simp [setPrevious, endTransaction, assembled_of_no_sync hsync, releaseFrame, hout, hwhole, hkind,
      HostPort.deliver, attnLevel]
  · simp [setPrevious, endTransaction, assembled_of_no_sync hsync, releaseFrame, hout, Nat.not_le.mpr hcut]

/-- Settles O23: a judgement that is not TAKEN is counted, and no more. -/
theorem hcsRiseWithoutRequest : Obligations.HcsRiseWithoutRequest := by
  intro s clocked o hlow
  refine ⟨fun hseen hjudged hnot => ?_, fun hunseen => ?_⟩
  · rw [exec_hcsRise hlow hseen, hjudged, takeJudged_of_not_taken hnot]
    cases o <;> rfl
  · have hrise : riseHcs clocked s = riseUnseen s := by simp [riseHcs, hlow, hunseen]
    exact congrArg _ hrise

/-! Frames and records as they are laid out (sections 11.1 and 11.6). -/

/-- The check of a string that ends in it. -/
theorem check_of_laidOut (h rest : List Byte) {n : Nat} (hn : h.length = n) :
    (h ++ checkBytes h ++ rest).take n = h ∧ slice (h ++ checkBytes h ++ rest) n 2 = checkBytes h := by
  subst hn
  rw [List.append_assoc]
  exact ⟨by simp, slice_append rfl rfl⟩

/-- The parts of a host frame followed by fill. -/
theorem hostFrame_parts (kind tag outcome : Byte) (fill : List Byte) {body : List Byte} (hbody : body.length ≤ 1600) :
    let clocked := hostFrame kind tag outcome body ++ fill
    at1 clocked 0 = 0xA6 ∧ clocked.getD 1 0 = kind ∧ clocked.getD 2 0 = tag ∧ at2 clocked 4 = body.length
      ∧ frameBody clocked = body ∧ checkGood clocked = true ∧ 8 + body.length ≤ clocked.length
      ∧ clocked.take (8 + body.length) = hostFrame kind tag outcome body := by
  have hlength : (hostFrame kind tag outcome body).length = 8 + body.length := by
    simp [hostFrame]
    omega
  have hat2 : at2 (hostFrame kind tag outcome body ++ fill) 4 = body.length :=
    (by simp [hostFrame] :
      at2 (hostFrame kind tag outcome body ++ fill) 4 = at2 (be16 body.length ++ (body ++ (checkBytes
        ([0xA6, kind, tag, outcome] ++ be16 body.length ++ body) ++ fill))) 0).trans (at2_be16 (by omega) _)
  have hcheck := check_of_laidOut ([0xA6, kind, tag, outcome] ++ be16 body.length ++ body) fill
    (n := 6 + body.length) (by simp; omega)
  refine ⟨rfl, rfl, rfl, hat2, ?_, ?_, ?_, ?_⟩
  · rw [frameBody, hat2, hostFrame, List.append_assoc, List.append_assoc]
    exact slice_append rfl rfl
  · rw [checkGood_iff, hat2]
    obtain ⟨htake, hslice⟩ := hcheck
    exact ⟨hbody, hslice.trans (congrArg checkBytes htake.symm)⟩
  · simp [hlength]
  · rw [← hlength, List.take_left']
    rfl

/-- A request kind is the one of its code. -/
theorem requestOfCode_requestCode (k : RequestKind) : requestOfCode (requestCode k) = some k := by
  cases k <;> rfl

/-- A free port stays free at the end of the transaction. -/
theorem portFree_endTransaction {s : State} {clocked : List Byte} (h : busyAfter clocked.length s = false) :
    PortFree (endTransaction clocked s) := by
  unfold busyAfter portBusy at h
  unfold PortFree portBusy
  simp only [Bool.or_eq_false_iff] at h ⊢
  obtain ⟨⟨_, hreply⟩, hflight⟩ := h
  exact ⟨⟨rfl, hreply⟩, hflight⟩

/-- Settles O24: the frame laid out is judged TAKEN, and its parts are the request's. -/
theorem hcsRiseRunsRequestSent : Obligations.HcsRiseRunsRequestSent := by
  intro s k tag body fill hlow hseen hbody hfree
  obtain ⟨hsync, hkind, htag, hlen, hframe, hgood, hwhole, htake⟩ :=
    hostFrame_parts (requestCode k) tag 0 fill hbody
  generalize hclocked : hostFrame (requestCode k) tag 0 body ++ fill = clocked at *
  have hjudged : judgeFrame (busyAfter clocked.length s) clocked = .taken := by
    rw [judgeFrame, if_neg (not_not.mpr hsync), frameEnd, hlen, if_neg (by omega), if_neg (by simp [hgood]), hfree, hkind,
      requestOfCode_requestCode]
    rfl
  have hassembled : assembled clocked = hostFrame (requestCode k) tag 0 body := by
    rw [assembled, if_neg (not_not.mpr hsync), hlen, if_neg (by omega), frameEnd, hlen, htake]
  have htaken : takeJudged .taken clocked (endTransaction clocked s) =
      runRequest k tag body (setPrevious .taken (endTransaction clocked s)) := by
    rw [takeJudged, if_pos rfl, hkind, requestOfCode_requestCode, htag, hframe]
    rfl
  rw [exec_hcsRise hlow hseen, hjudged, htaken, ← hassembled, exec_requestCommand]
  exact congrArg _ (hostRequest_of_portFree (portFree_endTransaction hfree) _).symm

/-! Records. -/

/-- A record's body is within the limit. -/
theorem body_length_le {r : StationIn} (h : ∀ frame, r = .rxFrame frame → 1 ≤ frame.length ∧ frame.length ≤ 1600) :
    r.body.length ≤ 1600 := by
  cases r with
  | rxFrame frame => exact (h frame rfl).2
  | _ => exact Nat.zero_le _

theorem stationRecord_of {r : StationIn}
    (h : ∀ frame, r = .rxFrame frame → 1 ≤ frame.length ∧ frame.length ≤ 1600) :
    stationRecord r.code.toNat r.body = some r := by
  cases r with
  | rxFrame frame => exact (if_pos rfl).trans (if_pos (h frame rfl))
  | _ => rfl

/-- A record laid out decodes to itself. -/
theorem decodeRecord_bytes {r : StationIn} (rest : List Byte)
    (h : ∀ frame, r = .rxFrame frame → 1 ≤ frame.length ∧ frame.length ≤ 1600) :
    decodeRecord (r.bytes ++ rest) = some r := by
  have hbody := body_length_le h
  have hat2 : at2 (r.bytes ++ rest) 2 = r.body.length :=
    (by simp [StationIn.bytes] : at2 (r.bytes ++ rest) 2 = at2 (be16 r.body.length ++ (r.body ++ (checkBytes
        ([0x5C, r.code] ++ be16 r.body.length ++ r.body) ++ rest))) 0).trans (at2_be16 (by omega) _)
  have hlength : (r.bytes ++ rest).length = 6 + r.body.length + rest.length := by
    simp [StationIn.bytes]
    omega
  obtain ⟨htake, hslice⟩ := check_of_laidOut ([0x5C, r.code] ++ be16 r.body.length ++ r.body) rest
    (n := 4 + r.body.length) (by simp; omega)
  have hcheck : slice (r.bytes ++ rest) (4 + r.body.length) 2
      = checkBytes ((r.bytes ++ rest).take (4 + r.body.length)) := hslice.trans (congrArg checkBytes htake.symm)
  have hslice : slice (r.bytes ++ rest) 4 r.body.length = r.body := by
    rw [StationIn.bytes, List.append_assoc, List.append_assoc]
    exact slice_append rfl rfl
  have hkind : at1 (r.bytes ++ rest) 1 = r.code.toNat := rfl
  have hsync : at1 (r.bytes ++ rest) 0 = 0x5C := rfl
  simp only [decodeRecord]
  rw [hat2, if_neg (by omega), if_neg (not_not.mpr hcheck), hslice, hkind, stationRecord_of h]

/-- Settles O25: the record decodes to itself, and takeBytes takes what it decodes. -/
theorem stationRecordsReadBack : Obligations.StationRecordsReadBack := by
  intro r rest s h
  have hdecode := decodeRecord_bytes rest h
  have htaken : takeBytes (r.bytes ++ rest) s = takeRecord r s := by rw [takeBytes, hdecode]
  refine ⟨hdecode, (congrArg _ htaken).trans ?_⟩
  cases r <;> rfl

end Sys2Proof.Proofs
end

section
/-! PROOFS. What a taken request answers, and the requests that read (O26 to O29, O32 to O34). -/

namespace Sys2Proof.Proofs

open Sys2Proof Sys2Proof.Machine

/-! The host port over notices of state changes. -/

theorem queueNotice_previous (n : Notice) (s : State) : (queueNotice n s).host.previous = s.host.previous := by
  unfold queueNotice
  split <;> rfl

/-- State changes leave the reply, the request in flight and the previous outcome. -/
theorem afterChanges_keeps (changes : List (StandIn × Reason)) (s : State) :
    (afterChanges changes s).reply = s.host.reply ∧ (afterChanges changes s).inFlight = s.host.inFlight
      ∧ (afterChanges changes s).previous = s.host.previous := by
  induction changes generalizing s with
  | nil => exact ⟨rfl, rfl, rfl⟩
  | cons change rest ih =>
    obtain ⟨hreply, hflight, hprevious⟩ := ih { s with
      host := afterChange s change.1 change.2, controller := { s.controller with standIn := change.1 } }
    exact ⟨hreply.trans (queueNotice_reply _ s), hflight.trans (queueNotice_inFlight _ s),
      hprevious.trans (queueNotice_previous _ s)⟩

/-! HAND OVER until the end of arming is judged. -/

/-- The device at a hand-over with its reports made, its list offered and its rounds begun. -/
def startedStandIn (depth : Depth) (tag : Byte) (s : State) : State :=
  let u := startBlocks depth tag s
  beginDueRounds (offerListNow (reportTwo (leaseReports u.responder.entries) (startLossReports u.keeper.sessions) u))

theorem startStandIn_eq (depth : Depth) (tag : Byte) (s : State) : startStandIn depth tag s =
    if (startedStandIn depth tag s).port.linkUp then checkArmingEnd (startedStandIn depth tag s)
    else endArming true (startedStandIn depth tag s) := by
  unfold startStandIn startedStandIn
  dsimp only

/-- Reports outside STANDING leave the host port. -/
theorem reportTwo_host (xs ys : List Report) {s : State} (hst : s.controller.standIn ≠ .standing) :
    (reportTwo xs ys s).host = s.host := by
  obtain ⟨w, hw⟩ := reportAll_of_not_standing (mergeReports (xs.length + ys.length) xs ys s.freeCount).1
    (s := { s with freeCount := (mergeReports (xs.length + ys.length) xs ys s.freeCount).2 }) hst
  rw [reportTwo, hw]

theorem startedStandIn_controller (depth : Depth) (tag : Byte) (s : State) :
    (startedStandIn depth tag s).controller = (startBlocks depth tag s).controller := by
  simp [startedStandIn, reportTwo_controller _ _ (show (startBlocks depth tag s).controller.standIn ≠ .standing from
    (show StandIn.arming ≠ .standing by decide))]

theorem startedStandIn_host (depth : Depth) (tag : Byte) (s : State) : (startedStandIn depth tag s).host =
    { afterChanges [(.arming, .handedOver)] s with inFlight := some tag } := by
  have hblocks : (startBlocks depth tag s).host = { afterChange s .arming .handedOver with inFlight := some tag } := by
    rw [startBlocks, changeState_eq]
  simp [startedStandIn, reportTwo_host _ _ (show (startBlocks depth tag s).controller.standIn ≠ .standing from
    (show StandIn.arming ≠ .standing by decide)), hblocks, afterChanges]

/-- HAND OVER is in flight while arming goes on, and is answered where arming ends with its taking. -/
theorem startStandIn_host (depth : Depth) (tag : Byte) (s : State) :
    (startStandIn depth tag s).host.previous = s.host.previous
      ∧ (((startStandIn depth tag s).host.inFlight = some tag ∧ (startStandIn depth tag s).host.reply = s.host.reply)
        ∨ ((startStandIn depth tag s).host.inFlight = none
          ∧ ∃ b, b ≠ [] ∧ (startStandIn depth tag s).host.reply = some { tag := tag, body := 0 :: b })) := by
  have hhost := startedStandIn_host depth tag s
  have harming : (startedStandIn depth tag s).controller.standIn = .arming := by
    rw [startedStandIn_controller]
    rfl
  obtain ⟨hreply, _, hprevious⟩ := afterChanges_keeps [(.arming, .handedOver)] s
  have hflight : (startedStandIn depth tag s).host.inFlight = some tag := by rw [hhost]
  have hgoes : (startedStandIn depth tag s).host.previous = s.host.previous
      ∧ (startedStandIn depth tag s).host.reply = s.host.reply := by
    rw [hhost]
    exact ⟨hprevious, hreply⟩
  rw [startStandIn_eq]
  generalize startedStandIn depth tag s = u at *
  have hends : ∀ linkDown, (endArming linkDown u).host.previous = s.host.previous
      ∧ (endArming linkDown u).host.inFlight = none
      ∧ ∃ b, b ≠ [] ∧ (endArming linkDown u).host.reply = some { tag := tag, body := 0 :: b } := by
    intro linkDown
    obtain ⟨_, _, hended⟩ := endArming_does linkDown _ tag harming hflight
    rw [hended]
    exact ⟨(afterChanges_keeps _ _).2.2.trans hgoes.1, rfl, _, List.cons_ne_nil _ _, rfl⟩
  split
  · unfold checkArmingEnd
    split
    · exact ⟨(hends false).1, .inr (hends false).2⟩
    · exact ⟨hgoes.1, .inl ⟨hflight, hgoes.2⟩⟩
  · exact ⟨(hends true).1, .inr (hends true).2⟩

/-! What a taken request answers. -/

/-- A request that finds the port free runs. -/
theorem exec_taken {s : State} (hfree : PortFree s) (k : RequestKind) (tag : Byte) (body : List Byte) :
    exec (requestCommand k tag body) s = .next (runRequest k tag body (setPrevious .taken s)) := by
  rw [exec_requestCommand, hostRequest_of_portFree hfree]

/-- The request is answered OK: a reply of its tag, the rest of the port as it was. -/
def AnsweredOk (tag : Byte) (s t : State) : Prop :=
  t.host.previous = s.host.previous ∧ t.host.inFlight = s.host.inFlight
    ∧ ∃ b, t.host.reply = some { tag := tag, body := 0 :: b }

/-- The request is a HAND OVER that is in flight, or that arming's end has answered. -/
def HandOverBegun (tag : Byte) (s t : State) : Prop :=
  t.host.previous = s.host.previous
    ∧ ((t.host.inFlight = some tag ∧ t.host.reply = s.host.reply)
      ∨ (t.host.inFlight = none ∧ ∃ b, b ≠ [] ∧ t.host.reply = some { tag := tag, body := 0 :: b }))

theorem answeredOk_okReply {tag : Byte} {s t : State} (rest : List Byte) (h : t.host = s.host) :
    AnsweredOk tag s (okReply tag rest t) := by
  simp [AnsweredOk, h, Status.code]

theorem answeredOk_takeBack (tag : Byte) (outcome : WakeOutcome) (s : State) :
    AnsweredOk tag s (takeBack tag outcome s) := by
  unfold takeBack AnsweredOk
  rw [(enterReturning_does _ _ _).1]
  obtain ⟨hreply, hflight, hprevious⟩ := afterChanges_keeps
    (returnChanges .takenBack (okReply tag (takeBackReply outcome s) s)) (okReply tag (takeBackReply outcome s) s)
  exact ⟨hprevious, hflight, _, hreply⟩

/-- A taken request is refused, answered OK, or a HAND OVER taken. -/
theorem RequestEffect.answer {k : RequestKind} {tag : Byte} {s t : State} (e : RequestEffect k tag s t) :
    (∃ status, t = refuse tag status s) ∨ AnsweredOk tag s t
      ∨ (k = .handOver ∧ HandOverBegun tag s t) := by
  cases e with
  | refused status _ => exact .inl ⟨status, rfl⟩
  | reported rest => exact .inr (.inl (answeredOk_okReply _ rfl))
  | released rest => exact .inr (.inl (answeredOk_okReply _ rfl))
  | countersCleared => exact .inr (.inl ⟨rfl, rfl, _, rfl⟩)
  | entryWritten i e => exact .inr (.inl (answeredOk_okReply _ rfl))
  | ruleInserted rest p r _ _ => exact .inr (.inl (answeredOk_okReply _ rfl))
  | ruleRemoved rest p => exact .inr (.inl (answeredOk_okReply _ rfl))
  | templateWritten rest i t => exact .inr (.inl (answeredOk_okReply _ rfl))
  | sessionPut i x _ _ _ => exact .inr (.inl (answeredOk_okReply _ rfl))
  | sessionDropped i => exact .inr (.inl (answeredOk_okReply _ rfl))
  | policySet p _ _ => exact .inr (.inl (answeredOk_okReply _ rfl))
  | cleared _ => exact .inr (.inl (answeredOk_okReply _ rfl))
  | handedOver depth hk _ => exact .inr (.inr ⟨hk, startStandIn_host depth tag s⟩)
  | takenBack outcome _ => exact .inr (.inl (answeredOk_takeBack tag outcome s))

/-- A host request is one of the kinds, or STATUS with CLEAR. -/
theorem request_cases {c : Instr} (h : isRequest c = true) :
    (∃ k tag body, c = requestCommand k tag body) ∨ ∃ tag, c = .statusClear tag := by
  induction c using instr_cases with
  | request k tag body => exact .inl ⟨k, tag, body, rfl⟩
  | statusClear tag => exact .inr ⟨tag, rfl⟩
  | classify k => cases k <;> cases h
  | other c hreq _ => simp [hreq] at h

/-- Settles O26: a request at a busy port does not run. -/
theorem busyPortTakesNoRequest : Obligations.BusyPortTakesNoRequest := by
  intro c s hreq hbusy
  have hnot : ∀ run, hostRequest run s = notTakenBusy s := fun _ => if_pos hbusy
  rcases request_cases hreq with ⟨k, tag, body, rfl⟩ | ⟨tag, rfl⟩
  · rw [exec_requestCommand, hnot]
    rfl
  · exact congrArg _ (hnot _)

/-- A request that finds the port free has the effect of a request, on its previous outcome TAKEN. -/
theorem exec_request_effect {c : Instr} {s : State} (hreq : isRequest c = true) (hfree : PortFree s) :
    ∃ k tag t, exec c s = .next t ∧ RequestEffect k tag (setPrevious .taken s) t := by
  rcases request_cases hreq with ⟨k, tag, body, rfl⟩ | ⟨tag, rfl⟩
  · exact ⟨k, tag, _, exec_taken hfree k tag body, runRequest_effect k tag body _⟩
  · exact ⟨.status, tag, _, congrArg Host.Outcome.next (hostRequest_of_portFree hfree (reqStatusClear tag)), .countersCleared⟩

theorem reply_of_portFree {s : State} (hfree : PortFree s) : s.host.reply = none ∧ s.host.inFlight = none := by
  unfold PortFree portBusy at hfree
  simp only [Bool.or_eq_false_iff, Option.isSome_eq_false_iff, Option.isNone_iff_eq_none] at hfree
  exact ⟨hfree.1.2, hfree.2⟩

/-- Settles O27: an OK reply begins with 0, and a HAND OVER's goes on after it. -/
theorem refusedRequestChangesNothing : Obligations.RefusedRequestChangesNothing := by
  intro c s t r x hreq hfree hexec hreply hbody hx
  obtain ⟨k, tag, t', hexec', heffect⟩ := exec_request_effect hreq hfree
  obtain rfl : t' = t := by
    rw [hexec'] at hexec
    exact Host.Outcome.next.inj hexec
  rcases heffect.answer with ⟨status, rfl⟩ | ⟨_, _, b, hb⟩ | ⟨_, _, hbegun⟩
  · have hr : r = { tag := tag, body := [status.code] } := (Option.some.inj hreply).symm
    subst hr
    rfl
  · rw [hb] at hreply
    obtain rfl := Option.some.inj hreply
    exact absurd (List.cons.inj hbody).1.symm hx
  · obtain ⟨_, hnone⟩ | ⟨_, b, hb, hsome⟩ := hbegun
    · rw [hnone] at hreply
      exact absurd ((reply_of_portFree hfree).1.symm.trans hreply) (by simp)
    · rw [hsome] at hreply
      obtain rfl := Option.some.inj hreply
      exact absurd (List.cons.inj hbody).2 hb

/-- Settles O28: every effect of a request answers it, or leaves a HAND OVER in flight. -/
theorem takenRequestIsAnswered : Obligations.TakenRequestIsAnswered := by
  intro k tag body s hfree
  obtain ⟨hreply, hflight⟩ := reply_of_portFree hfree
  refine ⟨_, exec_taken hfree k tag body, ?_⟩
  rcases (runRequest_effect k tag body (setPrevious .taken s)).answer with
    ⟨status, hrefused⟩ | ⟨hprevious, hkeeps, b, hb⟩ | ⟨hk, hprevious, hbegun⟩
  · rw [hrefused]
    exact ⟨rfl, .inl ⟨hflight, _, rfl⟩⟩
  · exact ⟨hprevious, .inl ⟨hkeeps.trans hflight, _, hb⟩⟩
  · obtain ⟨hgoes, hnone⟩ | ⟨hends, b, _, hb⟩ := hbegun
    · exact ⟨hprevious, .inr ⟨hk, hgoes, hnone.trans hreply⟩⟩
    · exact ⟨hprevious, .inl ⟨hends, _, hb⟩⟩

/-! Edits. -/

/-- An edit is judged by its length and the state first (R5). -/
theorem runRequest_edit {k : RequestKind} {tag : Byte} {body : List Byte} (h : isEdit (requestCommand k tag body) = true) :
    ∃ carryOut, runRequest k tag body = fun s => judged tag (editCheck (editLengthOk k body) s) carryOut s := by
  cases k <;> first | exact ⟨_, rfl⟩ | cases h

/-- Settles O29: an edit is judged before it is carried out. -/
theorem editsRefusedOutsideAttended : Obligations.EditsRefusedOutsideAttended := by
  intro k tag body s hedit hfree hst
  obtain ⟨carryOut, hrun⟩ := runRequest_edit hedit
  refine ⟨fun hlength => ?_, fun hlength => ?_⟩
  · rw [exec_requestCommand, hrun, hlength, hostRequest_edit_badLength hfree]
  · rw [exec_requestCommand, hrun, hlength, hostRequest_edit_wrongState hfree hst]

/-! Reads in pieces. -/

theorem startCheck_of_lt {bound : Nat} {body : List Byte} (hlength : body.length = 1) (hlt : at1 body 0 < bound) :
    startCheck bound body = none := by
  rw [startCheck, if_neg (not_not.mpr hlength), if_neg (Nat.not_le.mpr hlt)]

theorem startCheck_of_le {bound : Nat} {body : List Byte} (hlength : body.length = 1) (hle : bound ≤ at1 body 0) :
    startCheck bound body = some .badField := by
  rw [startCheck, if_neg (not_not.mpr hlength), if_pos hle]

theorem startCheck_of_length {bound : Nat} {body : List Byte} (hlength : body.length ≠ 1) :
    startCheck bound body = some .badLength := if_pos hlength

theorem judged_of_none {tag : Byte} {check : Option Status} (h : check = none) (carryOut : State → State) (s : State) :
    judged tag check carryOut s = carryOut s := by
  rw [h, judged]

theorem judged_of_some {tag : Byte} {check : Option Status} {status : Status} (h : check = some status)
    (carryOut : State → State) (s : State) : judged tag check carryOut s = refuse tag status s := by
  rw [h, judged]

/-- A request that finds the port free and is refused. -/
theorem exec_refused {s : State} (hfree : PortFree s) {k : RequestKind} {tag : Byte} {body : List Byte} {status : Status}
    (hrun : runRequest k tag body (setPrevious .taken s) = refuse tag status (setPrevious .taken s)) :
    exec (requestCommand k tag body) s = .next (refused s tag status) := by
  rw [exec_taken hfree, hrun, refuse_taken]

/-- A request that finds the port free and is answered without any other effect. -/
theorem exec_answered {s : State} (hfree : PortFree s) {k : RequestKind} {tag : Byte} {body b : List Byte}
    (hrun : runRequest k tag body (setPrevious .taken s) = produceReply tag b (setPrevious .taken s)) :
    exec (requestCommand k tag body) s = .next (answered s tag b) := by
  rw [exec_taken hfree, hrun]
  rfl

/-- Settles O32: each read is judged by its start index. -/
theorem readsInPieces : Obligations.ReadsInPieces := by
  intro tag body s hfree
  refine ⟨fun hlength hstart => exec_answered hfree (k := .identityList) ?_,
    fun hlength hstart => exec_answered hfree (k := .ruleList) ?_,
    fun hlength hstart => exec_answered hfree (k := .templateList) ?_,
    fun hlength hstart => exec_answered hfree (k := .sessionGet) ?_,
    fun hlength hstart => exec_answered hfree (k := .holdStatus) ?_,
    fun hlength hstart => exec_refused hfree (k := .identityList) ?_,
    fun hlength hstart => exec_refused hfree (k := .ruleList) ?_,
    fun hlength hstart => exec_refused hfree (k := .templateList) ?_,
    fun hlength hstart => exec_refused hfree (k := .sessionGet) ?_,
    fun hlength hstart => exec_refused hfree (k := .holdStatus) ?_, fun hlength c hc => ?_⟩
  · rw [runRequest, reqIdentityList, judged_of_none (startCheck_of_lt hlength (by omega))]
    rfl
  · rw [runRequest, reqRuleList, judged_of_none (startCheck_of_lt hlength (by omega))]
    rfl
  · rw [runRequest, reqTemplateList, judged_of_none (startCheck_of_lt hlength (by omega))]
    rfl
  · rw [runRequest, reqSessionGet, judged_of_none (startCheck_of_lt hlength (by omega))]
    rfl
  · rw [runRequest, reqHoldStatus, judged_of_none (startCheck_of_lt hlength (by omega))]
    rfl
  · rw [runRequest, reqIdentityList, judged_of_some (startCheck_of_le hlength hstart)]
  · rw [runRequest, reqRuleList, judged_of_some (startCheck_of_le hlength hstart)]
  · rw [runRequest, reqTemplateList, judged_of_some (startCheck_of_le hlength hstart)]
  · rw [runRequest, reqSessionGet, judged_of_some (startCheck_of_le hlength hstart)]
  · rw [runRequest, reqHoldStatus, judged_of_some (startCheck_of_le hlength hstart)]
  · simp only [List.mem_cons, List.not_mem_nil, or_false] at hc
    have hcheck := fun bound => startCheck_of_length (bound := bound) hlength
    rcases hc with rfl | rfl | rfl | rfl | rfl
    · exact exec_refused hfree (k := .identityList) (by rw [runRequest, reqIdentityList, judged_of_some (hcheck _)])
    · exact exec_refused hfree (k := .ruleList) (by rw [runRequest, reqRuleList, judged_of_some (hcheck _)])
    · exact exec_refused hfree (k := .templateList) (by rw [runRequest, reqTemplateList, judged_of_some (hcheck _)])
    · exact exec_refused hfree (k := .sessionGet) (by rw [runRequest, reqSessionGet, judged_of_some (hcheck _)])
    · exact exec_refused hfree (k := .holdStatus) (by rw [runRequest, reqHoldStatus, judged_of_some (hcheck _)])

/-- Settles O33, by induction on the records. -/
theorem piecesStayWithinTheBody : Obligations.PiecesStayWithinTheBody := by
  intro used records hused
  induction records generalizing used with
  | nil => exact ⟨hused, rfl, rfl, fun _ hr => absurd hr (by simp [pieces])⟩
  | cons record records ih =>
    obtain ⟨i, r⟩ := record
    by_cases hfits : used + r.length ≤ 1600
    · obtain ⟨hbound, htaken, hnext, hleft⟩ := ih (used + r.length) hfits
      have hpieces : pieces used ((i, r) :: records) =
          (r :: (pieces (used + r.length) records).1, (pieces (used + r.length) records).2) := by
        simp [pieces, hfits]
      rw [hpieces]
      refine ⟨?_, ?_, ?_, fun r' hr' => ?_⟩
      · simpa [Nat.add_assoc] using hbound
      · simpa using htaken
      · simpa using hnext
      · simpa [Nat.add_assoc] using hleft r' (by simpa using hr')
    · have hpieces : pieces used ((i, r) :: records) = ([], some i) := by simp [pieces, hfits]
      rw [hpieces]
      refine ⟨hused, rfl, rfl, fun r' hr' => ?_⟩
      obtain rfl : (i, r) = r' := by simpa using hr'
      simpa using hfits

theorem statusBody_length (s : State) : (statusBody s).length = 143 := by
  have hcounters : ((counterOrder.map (fun c => be32 (s.counters.get c))).flatten).length = 120 := by
    simp [counterOrder]
  simp only [statusBody, List.length_append, hcounters, be32_length, be16_length, List.length_cons, List.length_nil]

theorem hostRequest_statusClear {s : State} (hfree : PortFree s) (tag : Byte) :
    hostRequest (reqStatusClear tag) s = { answered s tag (statusBody s) with counters := zeroCounters } := by
  rw [hostRequest_of_portFree hfree, reqStatusClear]
  rfl

/-- Settles O34: reqStatus by the option, and the parts of the status body counted. -/
theorem statusReportsAndClears : Obligations.StatusReportsAndClears := by
  intro tag body s hfree
  refine ⟨exec_answered hfree (k := .status) ?_, congrArg Host.Outcome.next (hostRequest_statusClear hfree tag),
    fun hlength hoption => exec_refused hfree (k := .status) ?_, fun hlength => exec_refused hfree (k := .status) ?_,
    statusBody_length s⟩
  · rw [runRequest, reqStatus, if_neg (by simp), if_pos (by simp)]
    rfl
  · rw [runRequest, reqStatus, if_neg (not_not.mpr hlength), if_neg (by omega), if_neg (by omega)]
  · rw [runRequest, reqStatus, if_pos hlength]

end Sys2Proof.Proofs
end

section
/-! PROOFS. The edits in ATTENDED (O36 to O39) and CLEAR ALL (O44). -/

namespace Sys2Proof.Proofs

open Sys2Proof Sys2Proof.Machine

/-! The checks of length and state. -/

theorem editCheck_of_length {s : State} {lengthOk : Bool} (h : lengthOk = false) :
    editCheck lengthOk s = some .badLength := if_pos h

theorem editCheck_passed {s : State} {lengthOk : Bool} (hlength : lengthOk = true)
    (hst : s.controller.standIn = .attended) : editCheck lengthOk s = none := by
  rw [hlength, editCheck_of_attended hst]

/-- An edit of the wrong length is refused. -/
theorem exec_edit_badLength {s : State} (hfree : PortFree s) {k : RequestKind} {tag : Byte} {body : List Byte}
    (hedit : isEdit (requestCommand k tag body) = true) (hlength : editLengthOk k body = false) :
    exec (requestCommand k tag body) s = .next (refused s tag .badLength) := by
  obtain ⟨carryOut, hrun⟩ := runRequest_edit hedit
  rw [exec_requestCommand, hrun, hlength, hostRequest_edit_badLength hfree]

/-- A drop's body of another length than one byte. -/
theorem dropLength_of_ne {body : List Byte} (h : body.length ≠ 1) : (body.length == 1) = false := by simpa using h

/-! What a write marks of the frame in classification is only what the frame still reads. -/

theorem writeEntry_sameFrame (i : Nat) (e : Option IdentityEntry) (s : State) : sameFrame s (writeEntry i e s) :=
  supersede_frame (fun k => { k with entries := keepItem i (lookup s.responder.entries i) k.entries }) s

theorem writeSession_sameFrame (i : Nat) (x : Option Session) (s : State) : sameFrame s (writeSession i x s) :=
  supersede_frame (fun k => { k with sessions := keepItem i (lookup s.keeper.sessions i) k.sessions }) s

theorem writeTemplate_sameFrame (i : Nat) (t : Option Template) (s : State) : sameFrame s (writeTemplate i t s) :=
  supersede_frame (fun k => { k with templates := keepItem i (lookup s.builder.templates i) k.templates }) s

theorem writeRules_sameFrame (new : List Rule) (place : Nat → Option Nat) (s : State) :
    sameFrame s (writeRules new place s) :=
  supersede_frame (fun k => { k with rules := some ((rulesRead s).map (fun p => (p.1, p.2.bind place))) }) s

/-! IDENTITY PUT and IDENTITY DROP, carried out in ATTENDED. -/

section IdentityRequests

variable {u : State} {tag : Byte} {body : List Byte} (hst : u.controller.standIn = .attended)

include hst

theorem reqIdentityPut_badField (hlength : identityPutLengthOk body = true)
    (hentry : identityPutEntry u.time body = none) : reqIdentityPut tag body u = refuse tag .badField u := by
  rw [reqIdentityPut, judged_of_none (editCheck_passed hlength hst), hentry]

theorem reqIdentityPut_refused (hlength : identityPutLengthOk body = true) {i : Nat} {e : IdentityEntry} {st : Status}
    (hentry : identityPutEntry u.time body = some (i, e)) (hcheck : entryCheck u.responder.entries i e = some st) :
    reqIdentityPut tag body u = refuse tag st u := by
  rw [reqIdentityPut, judged_of_none (editCheck_passed hlength hst), hentry]
  exact judged_of_some hcheck _ u

theorem reqIdentityPut_taken (hlength : identityPutLengthOk body = true) {i : Nat} {e : IdentityEntry}
    (hentry : identityPutEntry u.time body = some (i, e)) (hcheck : entryCheck u.responder.entries i e = none) :
    reqIdentityPut tag body u = okReply tag [] (writeEntry i (some e) u) := by
  rw [reqIdentityPut, judged_of_none (editCheck_passed hlength hst), hentry]
  exact judged_of_none hcheck _ u

theorem reqIdentityDrop_badField (hlength : body.length = 1) (hindex : 24 ≤ at1 body 0) :
    reqIdentityDrop tag body u = refuse tag .badField u := by
  rw [reqIdentityDrop, judged_of_none (editCheck_passed (beq_iff_eq.mpr hlength) hst), if_pos hindex]

theorem reqIdentityDrop_noEntry (hlength : body.length = 1) (hindex : at1 body 0 ≤ 23)
    (hentry : lookup u.responder.entries (at1 body 0) = none) :
    reqIdentityDrop tag body u = refuse tag .noEntry u := by
  rw [reqIdentityDrop, judged_of_none (editCheck_passed (beq_iff_eq.mpr hlength) hst), if_neg (by omega), hentry]

theorem reqIdentityDrop_inUse (hlength : body.length = 1) (hindex : at1 body 0 ≤ 23) {e : IdentityEntry}
    (hentry : lookup u.responder.entries (at1 body 0) = some e) (huse : entryInUse u (at1 body 0) e = true) :
    reqIdentityDrop tag body u = refuse tag .inUse u := by
  rw [reqIdentityDrop, judged_of_none (editCheck_passed (beq_iff_eq.mpr hlength) hst), if_neg (by omega), hentry]
  exact if_pos huse

theorem reqIdentityDrop_taken (hlength : body.length = 1) (hindex : at1 body 0 ≤ 23) {e : IdentityEntry}
    (hentry : lookup u.responder.entries (at1 body 0) = some e) (huse : entryInUse u (at1 body 0) e = false) :
    reqIdentityDrop tag body u = okReply tag [] (writeEntry (at1 body 0) none u) := by
  rw [reqIdentityDrop, judged_of_none (editCheck_passed (beq_iff_eq.mpr hlength) hst), if_neg (by omega), hentry]
  exact if_neg (by simp [huse])

end IdentityRequests

/-- Settles O36: each request by the first check that fails. -/
theorem identityEdits : Obligations.IdentityEdits := by
  intro tag body s hfree hst
  refine ⟨fun hlength => exec_edit_badLength hfree (k := .identityPut) rfl hlength,
    fun hlength hentry => exec_refused hfree (k := .identityPut) (reqIdentityPut_badField hst hlength hentry),
    fun i e st hlength hentry hcheck =>
      exec_refused hfree (k := .identityPut) (reqIdentityPut_refused (u := setPrevious .taken s) hst hlength hentry hcheck),
    fun i e hlength hentry hcheck => ?_,
    fun hlength => exec_edit_badLength hfree (k := .identityDrop) rfl (dropLength_of_ne hlength),
    fun hlength hindex => exec_refused hfree (k := .identityDrop) (reqIdentityDrop_badField hst hlength hindex),
    fun e hlength hindex hentry huse => ?_,
    fun e hlength hindex hentry huse =>
      exec_refused hfree (k := .identityDrop) (reqIdentityDrop_inUse hst hlength hindex hentry huse),
    fun hlength hindex hentry =>
      exec_refused hfree (k := .identityDrop) (reqIdentityDrop_noEntry hst hlength hindex hentry)⟩
  · refine ⟨okReply tag [] (writeEntry i (some e) (setPrevious .taken s)),
      (exec_taken hfree .identityPut tag body).trans (congrArg _ (reqIdentityPut_taken (u := setPrevious .taken s) hst hlength hentry hcheck)),
      rfl, rfl, rfl, rfl, rfl, rfl, rfl, rfl, rfl, rfl, rfl, rfl, rfl,
      writeEntry_sameFrame i (some e) (setPrevious .taken s), rfl, rfl⟩
  · refine ⟨okReply tag [] (writeEntry (at1 body 0) none (setPrevious .taken s)),
      (exec_taken hfree .identityDrop tag body).trans
        (congrArg _ (reqIdentityDrop_taken hst hlength hindex hentry huse)),
      rfl, rfl, rfl, rfl, rfl, rfl, rfl, rfl, rfl, rfl, rfl, rfl, rfl,
      writeEntry_sameFrame (at1 body 0) none (setPrevious .taken s), rfl, rfl⟩

/-! RULE PUT and RULE DROP, carried out in ATTENDED. -/

section RuleRequests

variable {u : State} {tag : Byte} {body : List Byte} (hst : u.controller.standIn = .attended)

include hst

theorem reqRulePut_badField (hlength : rulePutLengthOk body = true) (hrule : rulePutRule body = none) :
    reqRulePut tag body u = refuse tag .badField u := by
  rw [reqRulePut, judged_of_none (editCheck_passed hlength hst), hrule]

theorem reqRulePut_refused (hlength : rulePutLengthOk body = true) {r : Rule} {st : Status}
    (hrule : rulePutRule body = some r) (hcheck : rulePutCheck (at1 body 0) r u = some st) :
    reqRulePut tag body u = refuse tag st u := by
  rw [reqRulePut, judged_of_none (editCheck_passed hlength hst), hrule]
  exact judged_of_some hcheck _ u

theorem reqRulePut_taken (hlength : rulePutLengthOk body = true) {r : Rule} (hrule : rulePutRule body = some r)
    (hcheck : rulePutCheck (at1 body 0) r u = none) :
    reqRulePut tag body u = ruleCountReply tag (insertRule (at1 body 0) r u) := by
  rw [reqRulePut, judged_of_none (editCheck_passed hlength hst), hrule]
  exact judged_of_none hcheck _ u

theorem reqRuleDrop_badField (hlength : body.length = 1) (hindex : 32 ≤ at1 body 0) :
    reqRuleDrop tag body u = refuse tag .badField u := by
  rw [reqRuleDrop, judged_of_none (editCheck_passed (beq_iff_eq.mpr hlength) hst), if_pos hindex]

theorem reqRuleDrop_noEntry (hlength : body.length = 1) (hindex : at1 body 0 ≤ 31)
    (hend : u.classifier.rules.length ≤ at1 body 0) : reqRuleDrop tag body u = refuse tag .noEntry u := by
  rw [reqRuleDrop, judged_of_none (editCheck_passed (beq_iff_eq.mpr hlength) hst), if_neg (by omega), if_pos hend]

theorem reqRuleDrop_taken (hlength : body.length = 1) (hindex : at1 body 0 ≤ 31)
    (hplace : at1 body 0 < u.classifier.rules.length) :
    reqRuleDrop tag body u = ruleCountReply tag (removeRule (at1 body 0) u) := by
  rw [reqRuleDrop, judged_of_none (editCheck_passed (beq_iff_eq.mpr hlength) hst), if_neg (by omega),
    if_neg (by omega)]

end RuleRequests

theorem rulePutCheck_beyond {p : Nat} {r : Rule} {s : State} (h : s.classifier.rules.length < p) :
    rulePutCheck p r s = some .badField := if_pos h

theorem rulePutCheck_unnamed {p : Nat} {r : Rule} {s : State} (hplace : p ≤ s.classifier.rules.length)
    (hnamed : actionNamed s.builder.templates r.action = false) : rulePutCheck p r s = some .noEntry := by
  rw [rulePutCheck, if_neg (by omega), if_pos hnamed]

theorem rulePutCheck_full {p : Nat} {r : Rule} {s : State} (hplace : p ≤ s.classifier.rules.length)
    (hnamed : actionNamed s.builder.templates r.action = true) (hfull : 32 ≤ s.classifier.rules.length) :
    rulePutCheck p r s = some .noRoom := by
  rw [rulePutCheck, if_neg (by omega), if_neg (by simp [hnamed]), if_pos hfull]

theorem rulePutCheck_passed {p : Nat} {r : Rule} {s : State} (hplace : p ≤ s.classifier.rules.length)
    (hnamed : actionNamed s.builder.templates r.action = true) (hroom : s.classifier.rules.length < 32) :
    rulePutCheck p r s = none := by
  rw [rulePutCheck, if_neg (by omega), if_neg (by simp [hnamed]), if_neg (by omega)]

/-- The reply with the number of rules, by a new rule list of that length. -/
theorem ruleCountReply_host {tag : Byte} {s t : State} {n : Nat} (hhost : t.host = (setPrevious .taken s).host)
    (hlength : t.classifier.rules.length = n) :
    (ruleCountReply tag t).host = (answered s tag [0, byte n]).host := by
  subst hlength
  rw [ruleCountReply, okReply_host, hhost]
  rfl

/-- Settles O37: each request by the first check that fails. -/
theorem ruleEdits : Obligations.RuleEdits := by
  intro tag body s hfree hst
  have hput : ∀ {st : Status} {r : Rule}, rulePutLengthOk body = true → rulePutRule body = some r →
      rulePutCheck (at1 body 0) r (setPrevious .taken s) = some st →
      exec (.rulePut tag body) s = .next (refused s tag st) := fun hlength hrule hcheck =>
    exec_refused hfree (k := .rulePut) (reqRulePut_refused (u := setPrevious .taken s) hst hlength hrule hcheck)
  refine ⟨fun hlength => exec_edit_badLength hfree (k := .rulePut) rfl hlength,
    fun hlength hrule => exec_refused hfree (k := .rulePut) (reqRulePut_badField hst hlength hrule),
    fun r hlength hrule hbeyond => hput hlength hrule (rulePutCheck_beyond hbeyond),
    fun r hlength hrule hplace hnamed hroom => ?_,
    fun r hlength hrule hplace hnamed hfull => hput hlength hrule (rulePutCheck_full hplace hnamed hfull),
    fun r hlength hrule hplace hnamed => hput hlength hrule (rulePutCheck_unnamed hplace hnamed),
    fun hlength => exec_edit_badLength hfree (k := .ruleDrop) rfl (dropLength_of_ne hlength),
    fun hlength hindex => exec_refused hfree (k := .ruleDrop) (reqRuleDrop_badField hst hlength hindex),
    fun hlength hindex hplace => ?_,
    fun hlength hindex hend => exec_refused hfree (k := .ruleDrop) (reqRuleDrop_noEntry hst hlength hindex hend)⟩
  · refine ⟨ruleCountReply tag (insertRule (at1 body 0) r (setPrevious .taken s)),
      (exec_taken hfree .rulePut tag body).trans (congrArg _ (reqRulePut_taken (u := setPrevious .taken s) hst hlength
        hrule (rulePutCheck_passed hplace hnamed hroom))), rfl, ruleCountReply_host rfl ?_,
      rfl, rfl, rfl, rfl, rfl, rfl, rfl, rfl, rfl, rfl, rfl, writeRules_sameFrame _ _ (setPrevious .taken s), rfl, rfl⟩
    simp [insertRule]
    omega
  · refine ⟨ruleCountReply tag (removeRule (at1 body 0) (setPrevious .taken s)),
      (exec_taken hfree .ruleDrop tag body).trans (congrArg _ (reqRuleDrop_taken (u := setPrevious .taken s) hst hlength
        hindex hplace)), rfl, ruleCountReply_host rfl ?_,
      rfl, rfl, rfl, rfl, rfl, rfl, rfl, rfl, rfl, rfl, rfl, writeRules_sameFrame _ _ (setPrevious .taken s), rfl, rfl⟩
    simp [removeRule, List.length_eraseIdx, hplace]

/-! TEMPLATE PUT and TEMPLATE DROP, carried out in ATTENDED. -/

section TemplateRequests

variable {u : State} {tag : Byte} {body : List Byte} (hst : u.controller.standIn = .attended)

include hst

theorem reqTemplatePut_badField (hlength : templatePutLengthOk body = true) (htemplate : templatePutTemplate body = none) :
    reqTemplatePut tag body u = refuse tag .badField u := by
  rw [reqTemplatePut, judged_of_none (editCheck_passed hlength hst), htemplate]

theorem reqTemplatePut_noRoom (hlength : templatePutLengthOk body = true) {i : Nat} {x : Template}
    (htemplate : templatePutTemplate body = some (i, x)) (hfull : 1536 < storedWith i x u) :
    reqTemplatePut tag body u = refuse tag .noRoom u := by
  rw [reqTemplatePut, judged_of_none (editCheck_passed hlength hst), htemplate]
  exact if_pos hfull

theorem reqTemplatePut_taken (hlength : templatePutLengthOk body = true) {i : Nat} {x : Template}
    (htemplate : templatePutTemplate body = some (i, x)) (hroom : storedWith i x u ≤ 1536) :
    reqTemplatePut tag body u = storedReply tag (writeTemplate i (some x) u) := by
  rw [reqTemplatePut, judged_of_none (editCheck_passed hlength hst), htemplate]
  exact if_neg (Nat.not_lt.mpr hroom)

theorem reqTemplateDrop_badField (hlength : body.length = 1) (hindex : 8 ≤ at1 body 0) :
    reqTemplateDrop tag body u = refuse tag .badField u := by
  rw [reqTemplateDrop, judged_of_none (editCheck_passed (beq_iff_eq.mpr hlength) hst), if_pos hindex]

theorem reqTemplateDrop_noEntry (hlength : body.length = 1) (hindex : at1 body 0 ≤ 7)
    (htemplate : lookup u.builder.templates (at1 body 0) = none) :
    reqTemplateDrop tag body u = refuse tag .noEntry u := by
  rw [reqTemplateDrop, judged_of_none (editCheck_passed (beq_iff_eq.mpr hlength) hst), if_neg (by omega), htemplate,
    if_pos Option.isNone_none]

theorem reqTemplateDrop_inUse (hlength : body.length = 1) (hindex : at1 body 0 ≤ 7) {x : Template}
    (htemplate : lookup u.builder.templates (at1 body 0) = some x)
    (huse : u.classifier.rules.any (namesTemplate (at1 body 0)) = true) :
    reqTemplateDrop tag body u = refuse tag .inUse u := by
  rw [reqTemplateDrop, judged_of_none (editCheck_passed (beq_iff_eq.mpr hlength) hst), if_neg (by omega), htemplate,
    if_neg (by simp), if_pos huse]

theorem reqTemplateDrop_taken (hlength : body.length = 1) (hindex : at1 body 0 ≤ 7) {x : Template}
    (htemplate : lookup u.builder.templates (at1 body 0) = some x)
    (huse : u.classifier.rules.any (namesTemplate (at1 body 0)) = false) :
    reqTemplateDrop tag body u = storedReply tag (writeTemplate (at1 body 0) none u) := by
  rw [reqTemplateDrop, judged_of_none (editCheck_passed (beq_iff_eq.mpr hlength) hst), if_neg (by omega), htemplate,
    if_neg (by simp), if_neg (by simp [huse])]

end TemplateRequests

theorem any_namesTemplate_iff (i : Nat) (rules : List Rule) :
    rules.any (namesTemplate i) = true ↔ ∃ r ∈ rules, r.action = .template i := by
  simp [namesTemplate]

/-- Settles O38: each request by the first check that fails. -/
theorem templateEdits : Obligations.TemplateEdits := by
  intro tag body s hfree hst
  refine ⟨fun hlength => exec_edit_badLength hfree (k := .templatePut) rfl hlength,
    fun hlength htemplate => exec_refused hfree (k := .templatePut) (reqTemplatePut_badField hst hlength htemplate),
    fun i x hlength htemplate hroom => ?_,
    fun i x hlength htemplate hfull => exec_refused hfree (k := .templatePut)
      (reqTemplatePut_noRoom (u := setPrevious .taken s) hst hlength htemplate hfull),
    fun hlength => exec_edit_badLength hfree (k := .templateDrop) rfl (dropLength_of_ne hlength),
    fun hlength hindex => exec_refused hfree (k := .templateDrop) (reqTemplateDrop_badField hst hlength hindex),
    fun hlength hindex htemplate =>
      exec_refused hfree (k := .templateDrop) (reqTemplateDrop_noEntry hst hlength hindex htemplate),
    fun x hlength hindex htemplate hfree' => ?_,
    fun x hlength hindex htemplate huse => exec_refused hfree (k := .templateDrop)
      (reqTemplateDrop_inUse (u := setPrevious .taken s) hst hlength hindex htemplate ((any_namesTemplate_iff _ _).mpr huse))⟩
  · exact ⟨storedReply tag (writeTemplate i (some x) (setPrevious .taken s)),
      (exec_taken hfree .templatePut tag body).trans (congrArg _
        (reqTemplatePut_taken (u := setPrevious .taken s) hst hlength htemplate hroom)),
      rfl, rfl, rfl, rfl, rfl, rfl, rfl, rfl, rfl, rfl, rfl, rfl, rfl,
      writeTemplate_sameFrame i (some x) (setPrevious .taken s), rfl, rfl⟩
  · have huse : s.classifier.rules.any (namesTemplate (at1 body 0)) = false := by
      rw [Bool.eq_false_iff, ne_eq, any_namesTemplate_iff]
      rintro ⟨r, hr, hnames⟩
      exact hfree' r hr hnames
    exact ⟨storedReply tag (writeTemplate (at1 body 0) none (setPrevious .taken s)),
      (exec_taken hfree .templateDrop tag body).trans (congrArg _
        (reqTemplateDrop_taken (u := setPrevious .taken s) hst hlength hindex htemplate huse)),
      rfl, rfl, rfl, rfl, rfl, rfl, rfl, rfl, rfl, rfl, rfl, rfl, rfl,
      writeTemplate_sameFrame (at1 body 0) none (setPrevious .taken s), rfl, rfl⟩

/-! SESSION PUT and SESSION DROP, carried out in ATTENDED. -/

section SessionRequests

variable {u : State} {tag : Byte} {body : List Byte} (hst : u.controller.standIn = .attended)

include hst

theorem reqSessionPut_badField (hlength : sessionPutLengthOk body = true)
    (hrecord : sessionPutRecord u.keeper.nextProbe body = none) : reqSessionPut tag body u = refuse tag .badField u := by
  rw [reqSessionPut, judged_of_none (editCheck_passed hlength hst), hrecord]

theorem reqSessionPut_refused (hlength : sessionPutLengthOk body = true) {i : Nat} {x : Session} {st : Status}
    (hrecord : sessionPutRecord u.keeper.nextProbe body = some (i, x)) (hcheck : sessionCheck i x u = some st) :
    reqSessionPut tag body u = refuse tag st u := by
  rw [reqSessionPut, judged_of_none (editCheck_passed hlength hst), hrecord]
  exact judged_of_some hcheck _ u

theorem reqSessionPut_taken (hlength : sessionPutLengthOk body = true) {i : Nat} {x : Session}
    (hrecord : sessionPutRecord u.keeper.nextProbe body = some (i, x)) (hcheck : sessionCheck i x u = none) :
    reqSessionPut tag body u = okReply tag [] (writeSession i (some x) u) := by
  rw [reqSessionPut, judged_of_none (editCheck_passed hlength hst), hrecord]
  exact judged_of_none hcheck _ u

theorem reqSessionDrop_badField (hlength : body.length = 1) (hindex : 12 ≤ at1 body 0) :
    reqSessionDrop tag body u = refuse tag .badField u := by
  rw [reqSessionDrop, judged_of_none (editCheck_passed (beq_iff_eq.mpr hlength) hst), if_pos hindex]

theorem reqSessionDrop_noEntry (hlength : body.length = 1) (hindex : at1 body 0 ≤ 11)
    (hrecord : lookup u.keeper.sessions (at1 body 0) = none) : reqSessionDrop tag body u = refuse tag .noEntry u := by
  rw [reqSessionDrop, judged_of_none (editCheck_passed (beq_iff_eq.mpr hlength) hst), if_neg (by omega), hrecord,
    if_pos Option.isNone_none]

theorem reqSessionDrop_taken (hlength : body.length = 1) (hindex : at1 body 0 ≤ 11) {x : Session}
    (hrecord : lookup u.keeper.sessions (at1 body 0) = some x) :
    reqSessionDrop tag body u = okReply tag [] (writeSession (at1 body 0) none u) := by
  rw [reqSessionDrop, judged_of_none (editCheck_passed (beq_iff_eq.mpr hlength) hst), if_neg (by omega), hrecord,
    if_neg (by simp)]

end SessionRequests

/-- The runtime fields of a record as a PUT starts them (R93). -/
def StartedAtPut (x : Session) : Prop :=
  x.state = .ready ∧ x.atReturn = none ∧ x.outstanding = 0 ∧ x.phase = .none ∧ x.nextDue = none
    ∧ x.deadline = none ∧ x.lastHeard = none ∧ x.probesSent = 0 ∧ x.peerAcks = 0 ∧ x.peerProbes = 0
    ∧ x.dataHeld = 0 ∧ x.outOfWindow = 0

theorem startedAtPut_of_sessionPutRecord {n i : Nat} {body : List Byte} {x : Session}
    (h : sessionPutRecord n body = some (i, x)) : StartedAtPut x := by
  unfold sessionPutRecord at h
  dsimp only at h
  split at h
  · obtain ⟨_, rfl⟩ := Prod.mk.inj (Option.some.inj h)
    exact ⟨rfl, rfl, rfl, rfl, rfl, rfl, rfl, rfl, rfl, rfl, rfl, rfl⟩
  · exact absurd h (by simp)

/-- Settles O39: each request by the first check that fails. -/
theorem sessionEdits : Obligations.SessionEdits := by
  intro tag body s hfree hst
  refine ⟨fun hlength => exec_edit_badLength hfree (k := .sessionPut) rfl hlength,
    fun hlength hrecord => exec_refused hfree (k := .sessionPut) (reqSessionPut_badField hst hlength hrecord),
    fun i x hlength hrecord hcheck => ?_,
    fun i x st hlength hrecord hcheck => exec_refused hfree (k := .sessionPut)
      (reqSessionPut_refused (u := setPrevious .taken s) hst hlength hrecord hcheck),
    fun hlength => exec_edit_badLength hfree (k := .sessionDrop) rfl (dropLength_of_ne hlength),
    fun hlength hindex => exec_refused hfree (k := .sessionDrop) (reqSessionDrop_badField hst hlength hindex),
    fun x hlength hindex hrecord => ?_,
    fun hlength hindex hrecord =>
      exec_refused hfree (k := .sessionDrop) (reqSessionDrop_noEntry hst hlength hindex hrecord)⟩
  · obtain ⟨hstate, hreturn, hout, hphase, hdue, hdeadline, hheard, hsent, hacks, hprobes, hheld, hwindow⟩ :=
      startedAtPut_of_sessionPutRecord hrecord
    exact ⟨okReply tag [] (writeSession i (some x) (setPrevious .taken s)),
      (exec_taken hfree .sessionPut tag body).trans (congrArg _
        (reqSessionPut_taken (u := setPrevious .taken s) hst hlength hrecord hcheck)),
      rfl, hstate, hreturn, hout, hphase, hdue, hdeadline, hheard, hsent, hacks, hprobes, hheld, hwindow, rfl,
      rfl, rfl, rfl, rfl, rfl, rfl, rfl, rfl, rfl, rfl, rfl,
      writeSession_sameFrame i (some x) (setPrevious .taken s), rfl, rfl⟩
  · exact ⟨okReply tag [] (writeSession (at1 body 0) none (setPrevious .taken s)),
      (exec_taken hfree .sessionDrop tag body).trans (congrArg _
        (reqSessionDrop_taken (u := setPrevious .taken s) hst hlength hindex hrecord)),
      rfl, rfl, rfl, rfl, rfl, rfl, rfl, rfl, rfl, rfl, rfl, rfl, rfl,
      writeSession_sameFrame (at1 body 0) none (setPrevious .taken s), rfl, rfl⟩

/-! CLEAR ALL. -/

theorem clearTables_sameFrame (s : State) : sameFrame s (clearTables s) := by
  simp [sameFrame, clearTables, supersedeAll, supersede, Function.comp_def]

/-- Settles O44: clearTables field by field. -/
theorem clearAllEmptiesTables : Obligations.ClearAllEmptiesTables := by
  intro tag s hfree hst
  have hrun : runRequest .clearAll tag [] (setPrevious .taken s) =
      okReply tag [] (clearTables (setPrevious .taken s)) := by
    rw [runRequest, reqClearAll, judged_of_none (editCheck_passed (s := setPrevious .taken s) (lengthOk := ([] : List Byte).length == 0) rfl hst)]
  exact ⟨okReply tag [] (clearTables (setPrevious .taken s)),
    (exec_taken hfree .clearAll tag []).trans (congrArg _ hrun),
    rfl, rfl, rfl, rfl, rfl, clearTables_sameFrame (setPrevious .taken s), rfl, rfl, rfl, rfl, rfl, rfl, rfl, rfl⟩

end Sys2Proof.Proofs
end

section
/-! PROOFS. The receive buffer, the taking of a frame, the filters, and the answers to deliveries (O45, O47, O50, O51). -/

namespace Sys2Proof.Proofs

open Sys2Proof Sys2Proof.Machine

/-! The receive buffer. -/

theorem takeRxFrame_of_length {f : List Byte} (hpos : 1 ≤ f.length) (hbound : f.length ≤ 1600) (s : State) :
    takeRxFrame f s =
      if s.port.rxBuffer.length < 6 then
        count .framesReceived 1 { s with port := { s.port with rxBuffer := s.port.rxBuffer ++ [f] } }
      else sendReady (count .receiveRefused 1 s) := if_neg (by omega)

/-- Settles O45: takeRxFrame by the room, and takeBytes on bytes that decode to nothing. -/
theorem receiveBufferTakesOrRefuses : Obligations.ReceiveBufferTakesOrRefuses := by
  intro f bytes s hpos hbound
  refine ⟨fun hroom => congrArg Host.Outcome.next ?_, fun hfull => congrArg Host.Outcome.next ?_,
    fun hdecode => congrArg Host.Outcome.next ?_⟩
  · rw [takeRxFrame_of_length hpos hbound, if_pos (by omega)]
    rfl
  · rw [takeRxFrame_of_length hpos hbound, if_neg (by omega), sendReady, sendRecord]
    simp [count, hfull]
  · rw [takeBytes, hdecode]
    rfl

/-! The sending step and the end of a return. -/

theorem sendingStep_of_not_returning {s : State} (h : s.controller.standIn ≠ .returning) : sendingStep s = s :=
  if_neg fun hsend => h hsend.1

theorem sendingStep_of_linkDown {s : State} (h : s.port.linkUp = false) : sendingStep s = s :=
  if_neg fun hsend => by simp [h] at hsend

theorem markInFlight_nil (n : Nat) : markInFlight n [] = [] := by cases n <;> rfl

/-- With no record held nothing is sent. -/
theorem sendingStep_of_nil {s : State} (h : s.hold.queue = []) : sendingStep s = s := by
  unfold sendingStep
  split
  · obtain ⟨time, controller, responder, classifier, builder, keeper, hold, wake, port, host, counters, freeCount,
      pending⟩ := s
    obtain ⟨queue, level, forgotten⟩ := hold
    obtain rfl : queue = [] := h
    simp [markInFlight_nil, oldestWaiting]
  · rfl

theorem drainComplete_sendingStep (s : State) : drainComplete (sendingStep s) = drainComplete s := by
  rw [Bool.eq_iff_iff, drainComplete_iff, drainComplete_iff, sendingStep_queue, sendingStep_rxBuffer]
  simp

theorem not_drainComplete_of_left {s : State}
    (h : s.hold.queue ≠ [] ∨ s.port.rxBuffer ≠ [] ∨ s.classifier.current ≠ none) : drainComplete s ≠ true := by
  rw [ne_eq, drainComplete_iff]
  rintro ⟨_, hqueue, hbuffer, hcurrent⟩
  simp [hqueue, hbuffer, hcurrent] at h

theorem not_drainComplete_of_not_returning {s : State} (h : s.controller.standIn ≠ .returning) :
    drainComplete s ≠ true := fun hdrained => h ((drainComplete_iff s).mp hdrained).1

/-! DELIVER_DONE. -/

theorem exec_deliverDone (s : State) : exec .deliverDone s = .next (checkDrained (sendingStep (takeDeliverDone s))) := rfl

theorem takeDeliverDone_of_forgotten {s : State} (h : 0 < s.hold.forgotten) :
    takeDeliverDone s = { s with hold := { s.hold with forgotten := s.hold.forgotten - 1 } } := if_pos h

theorem takeDeliverDone_of_none {s : State} (hforgotten : s.hold.forgotten = 0) (hflight : inFlightCount s.hold.queue = 0) :
    takeDeliverDone s = s := by
  rw [takeDeliverDone, if_neg (by omega), if_pos hflight]

theorem takeDeliverDone_of_front {s : State} {h : HeldFrame} {q : List HeldFrame} (hforgotten : s.hold.forgotten = 0)
    (hqueue : s.hold.queue = h :: q) (hdelivery : h.delivery = .inFlight) :
    takeDeliverDone s =
      { s with
        hold := { queue := q, level := levelOf s.wake.policy.highMark q, forgotten := 0 }
        counters := s.counters.add .delivered 1 } := by
  have hflight : inFlightCount s.hold.queue ≠ 0 := by
    rw [hqueue, inFlightCount_cons, if_pos hdelivery]
    omega
  have hremoved : removeInFlight s.hold.queue = q := by rw [hqueue, removeInFlight, if_pos hdelivery]
  rw [takeDeliverDone, if_neg (by omega), if_neg hflight, hremoved, ← hforgotten]
  rfl

/-- A return that is not drained after an answer goes on. -/
theorem exec_deliverDone_returning {s u : State} (hdone : takeDeliverDone s = u)
    (hleft : u.hold.queue ≠ [] ∨ u.port.rxBuffer ≠ [] ∨ u.classifier.current ≠ none) :
    exec .deliverDone s = .next (sendingStep u) := by
  rw [exec_deliverDone, hdone, checkDrained_of_not_drained]
  rw [drainComplete_sendingStep]
  exact not_drainComplete_of_left hleft

theorem exec_deliverDone_of_not_returning {s u : State} (hst : s.controller.standIn ≠ .returning)
    (hdone : takeDeliverDone s = u) (hcontroller : u.controller = s.controller) : exec .deliverDone s = .next u := by
  rw [← hcontroller] at hst
  rw [exec_deliverDone, hdone, sendingStep_of_not_returning hst,
    checkDrained_of_not_drained (not_drainComplete_of_not_returning hst)]

/-- Records IN_FLIGHT ahead of the WAITING ones stay so, and the oldest WAITING ones join them. -/
theorem markInFlight_append {flying waiting : List HeldFrame} (hflying : ∀ h ∈ flying, h.delivery = .inFlight)
    (hwaiting : ∀ h ∈ waiting, h.delivery = .waiting) (n : Nat) :
    markInFlight n (flying ++ waiting) =
      flying ++ (waiting.take n).map (fun h => { h with delivery := .inFlight }) ++ waiting.drop n := by
  induction flying generalizing n with
  | nil =>
    induction waiting generalizing n with
    | nil => simp [markInFlight_nil]
    | cons x waiting ih =>
      cases n with
      | zero => simp [markInFlight]
      | succ n =>
        have hx := hwaiting x List.mem_cons_self
        have hrest := ih (fun h hh => hwaiting h (List.mem_cons_of_mem x hh)) n
        simpa [markInFlight, hx] using hrest
  | cons x flying ih =>
    cases n with
    | zero => simp [markInFlight]
    | succ n =>
      have hx := hflying x List.mem_cons_self
      have hrest := ih (fun h hh => hflying h (List.mem_cons_of_mem x hh)) (n + 1)
      simpa [markInFlight, hx] using hrest

theorem filter_waiting_append {flying waiting : List HeldFrame} (hflying : ∀ h ∈ flying, h.delivery = .inFlight)
    (hwaiting : ∀ h ∈ waiting, h.delivery = .waiting) :
    (flying ++ waiting).filter (fun h => h.delivery == .waiting) = waiting := by
  rw [List.filter_append, List.filter_eq_nil_iff.mpr (fun h hh => by simp [hflying h hh]),
    List.filter_eq_self.mpr (fun h hh => by simp [hwaiting h hh]), List.nil_append]

theorem inFlightCount_append_waiting {flying waiting : List HeldFrame} (hflying : ∀ h ∈ flying, h.delivery = .inFlight)
    (hwaiting : ∀ h ∈ waiting, h.delivery = .waiting) : inFlightCount (flying ++ waiting) = flying.length := by
  unfold inFlightCount
  rw [List.filter_append, List.filter_eq_self.mpr (fun h hh => by simp [hflying h hh]),
    List.filter_eq_nil_iff.mpr (fun h hh => by simp [hwaiting h hh]), List.append_nil]

/-- Settles O47: the answer by what is forgotten and in flight, and the sending step by its queue. -/
theorem deliverDoneAnswersOldest : Obligations.DeliverDoneAnswersOldest := by
  intro s
  refine ⟨fun hst hforgotten => ?_, fun hst hforgotten hflight => ?_, fun hst hnone hleft => ?_,
    fun h q hst hforgotten hqueue hdelivery hleft => ?_, fun h hst hforgotten hqueue hdelivery hbuffer hcurrent => ?_,
    fun _ hlink => sendingStep_of_linkDown hlink, fun flying waiting hst hlink hqueue hflying hwaiting => ?_⟩
  · exact exec_deliverDone_of_not_returning hst (takeDeliverDone_of_forgotten hforgotten) rfl
  · exact exec_deliverDone_of_not_returning hst (takeDeliverDone_of_none hforgotten hflight) rfl
  · refine exec_deliverDone_returning ?_ hleft
    by_cases hforgotten : 0 < s.hold.forgotten
    · exact takeDeliverDone_of_forgotten hforgotten
    · have hzero : s.hold.forgotten = 0 := by omega
      rw [takeDeliverDone_of_none hzero (hnone.resolve_left hforgotten), hzero, Nat.zero_sub, ← hzero]
  · exact exec_deliverDone_returning (takeDeliverDone_of_front hforgotten hqueue hdelivery) hleft
  · rw [exec_deliverDone, takeDeliverDone_of_front hforgotten hqueue hdelivery, sendingStep_of_nil rfl]
    let u : State :=
      { s with
        hold := { queue := [], level := levelOf s.wake.policy.highMark [], forgotten := 0 }
        counters := s.counters.add .delivered 1 }
    have hdrained : drainComplete u = true := (drainComplete_iff u).mpr ⟨hst, rfl, hbuffer, hcurrent⟩
    refine congrArg Host.Outcome.next ?_
    refine (checkDrained_of_drained (s := u) hdrained).trans ?_
    rw [afterChange_congr (s := u) (t := s) rfl rfl rfl]
  · have hroom : sendRoom s = 4 - (flying.length + s.hold.forgotten) := by
      rw [sendRoom, hqueue, inFlightCount_append_waiting hflying hwaiting]
    have hsent : oldestWaiting (sendRoom s) s.hold.queue = waiting.take (sendRoom s) := by
      rw [oldestWaiting, hqueue, filter_waiting_append hflying hwaiting]
    rw [sendingStep, if_pos ⟨hst, hlink⟩, hsent, hqueue, markInFlight_append hflying hwaiting, hroom]
    rfl

/-! The taking of a frame. -/

theorem takeFrame_of_attended {s : State} {f : List Byte} {rest : List (List Byte)}
    (hcurrent : s.classifier.current = none) (hbuffer : s.port.rxBuffer = f :: rest)
    (hst : s.controller.standIn = .attended) : takeFrame s = settle .discarded (dequeueFrame rest s) := by
  simp only [takeFrame, hcurrent, hbuffer, hst]

theorem takeFrame_of_serving {s : State} {f : List Byte} {rest : List (List Byte)}
    (hcurrent : s.classifier.current = none) (hbuffer : s.port.rxBuffer = f :: rest)
    (hserving : s.controller.standIn.serving = true) :
    takeFrame s = beginClassification f (dequeueFrame rest s) := by
  cases hst : s.controller.standIn with
  | arming => simp only [takeFrame, hcurrent, hbuffer, hst]
  | standing => simp only [takeFrame, hcurrent, hbuffer, hst]
  | calling => simp only [takeFrame, hcurrent, hbuffer, hst]
  | attended => simp [hst, StandIn.serving] at hserving
  | returning => simp [hst, StandIn.serving] at hserving

theorem takeFrame_of_returning {s : State} {f : List Byte} {rest : List (List Byte)}
    (hcurrent : s.classifier.current = none) (hbuffer : s.port.rxBuffer = f :: rest)
    (hst : s.controller.standIn = .returning) : takeFrame s = holdAtReturn f (dequeueFrame rest s) := by
  simp only [takeFrame, hcurrent, hbuffer, hst]

theorem dequeueFrame_eq (rest : List (List Byte)) (s : State) :
    dequeueFrame rest s =
      { s with
        port := { s.port with rxBuffer := rest, sent := s.port.sent ++ [.ready (6 - rest.length)] }
        counters := s.counters.add .framesTaken 1 } := rfl

/-- With the classifier free, settling changes the disposition counter only. -/
theorem settled_of_free {s : State} (hcurrent : s.classifier.current = none) (d : Disposition) :
    settled d s = { s with counters := s.counters.add (.settled d) 1 } := by
  rw [settled, ← hcurrent]

theorem settled_sendingStep (d : Disposition) (s : State) : settled d (sendingStep s) = sendingStep (settled d s) := by
  by_cases hsend : s.controller.standIn = .returning ∧ s.port.linkUp = true
  · rw [sendingStep, if_pos hsend, sendingStep, if_pos (by exact hsend)]
    rfl
  · rw [sendingStep, if_neg hsend, sendingStep, if_neg (by exact hsend)]

/-- A record held with none displaced joins the tail. -/
theorem holding_zero (u : State) (f : List Byte) (source : HoldSource) (kept : Bool) :
    holding u f source kept 0 =
      let q :=
        u.hold.queue
          ++ [{ arrival := u.time, source := source, kept := kept, vlan := heldVlan f, bytes := f, delivery := .waiting }]
      { u.hold with queue := q, level := levelOf u.wake.policy.highMark q } := by
  simp [holding, dropUnkept]

theorem carriedHold_holdAtReturn (f : List Byte) (s : State) :
    CarriedHold f .atReturn false (fun _ => s) (holdAtReturn f s) := by
  refine carriedHold_of _ _ _ _ _ (fun hst hfits => ?_) (fun h => ?_)
  · simp only [holdAtReturn, requestHold_returning f .atReturn false s hst hfits, holdDisposition, if_true]
  · simp only [holdAtReturn, requestHold_turnedAway f .atReturn false s h, holdDisposition, Bool.false_eq_true,
      if_false]

/-- Settles O50: by the controller's state, a hold at the return by the hold buffer's own account of it. -/
theorem frameTakenByState : Obligations.FrameTakenByState := by
  intro s f rest hcurrent hbuffer
  refine ⟨fun hst => congrArg Host.Outcome.next ?_, fun hserving => congrArg Host.Outcome.next ?_,
    fun hst hfits => congrArg Host.Outcome.next ?_, fun hst hfull => congrArg Host.Outcome.next ?_⟩
  · rw [takeFrame_of_attended hcurrent hbuffer hst, settle_eq, settled_of_free (s := dequeueFrame rest s) hcurrent,
      checkDrained_of_not_drained]
    · rfl
    · exact not_drainComplete_of_not_returning (by simp [dequeueFrame_eq, hst])
  · rw [takeFrame_of_serving hcurrent hbuffer hserving]
    rfl
  · rw [takeFrame_of_returning hcurrent hbuffer hst]
    obtain ⟨haccepted, _⟩ := carriedHold_holdAtReturn f (dequeueFrame rest s)
    refine (haccepted hst hfits).trans ?_
    rw [settled_sendingStep, settled_of_free (by exact hcurrent), holding_zero]
    rfl
  · rw [takeFrame_of_returning hcurrent hbuffer hst]
    obtain ⟨_, hrefused⟩ := carriedHold_holdAtReturn f (dequeueFrame rest s)
    refine (hrefused (.inr ⟨hst, hfull⟩)).trans ?_
    rw [settled_of_free (by exact hcurrent)]
    rfl

/-! The filters. -/

theorem advance_of_current {s : State} {c : Classification} (hc : s.classifier.current = some c) (next : ClassStep) :
    advance next s = { s with classifier := { s.classifier with current := some { c with step := next } } } := by
  rw [advance, hc]
  rfl

/-- A filter's step as its check decides it (R58). -/
theorem exec_filter {s : State} {c : Classification} {k next : ClassStep} {ok : Bool}
    (hc : s.classifier.current = some c) (hk : c.step = k) (hrun : classStep k c s = filterStep ok next s) :
    (ok = true → exec (stepEvent k) s =
        .next { s with classifier := { s.classifier with current := some { c with step := next } } })
      ∧ (ok = false → exec (stepEvent k) s =
          .next
            (checkDrained
              { s with
                classifier := { s.classifier with current := none }
                counters := (s.counters.add .filtered 1).add (.settled .discarded) 1 })) := by
  rw [exec_stepEvent, atStep_of_current _ hc hk, hrun]
  refine ⟨fun hok => ?_, fun hok => ?_⟩
  · rw [hok, filterStep, if_pos rfl, advance_of_current hc]
  · rw [hok]
    rfl

/-- Settles O51: each filter's command is its step's event, and its check decides. -/
theorem filtersPassOrDiscard : Obligations.FiltersPassOrDiscard := by
  rintro s c cmd next ok hc (⟨hk, rfl, rfl, rfl⟩ | ⟨hk, rfl, rfl, rfl⟩ | ⟨hk, rfl, rfl, rfl⟩)
  · exact exec_filter (k := .length) hc hk rfl
  · exact exec_filter (k := .vlan) hc hk rfl
  · exact exec_filter (k := .destination) hc hk rfl

end Sys2Proof.Proofs
end

section
/-! PROOFS. State changes over the host port's other fields, and TAKE BACK (O43). -/

namespace Sys2Proof.Proofs

open Sys2Proof Sys2Proof.Machine

/-! State changes over a change of the host port that leaves its notices. -/

/-- A change of the host port that notices pass by. -/
def PassesNotices (g : HostPort → HostPort) : Prop :=
  (∀ h, (g h).lost = h.lost)
    ∧ ∀ n s, (queueNotice n { s with host := g s.host }).host = g (queueNotice n s).host

theorem passesNotices_taken : PassesNotices fun h => { h with previous := .taken } := by
  refine ⟨fun _ => rfl, fun n s => ?_⟩
  unfold queueNotice
  split <;> rfl

theorem passesNotices_begun (tag : Byte) :
    PassesNotices fun h => { h with previous := .taken, inFlight := some tag } := by
  refine ⟨fun _ => rfl, fun n s => ?_⟩
  unfold queueNotice
  split <;> rfl

theorem passesNotices_answered (tag : Byte) (body : List Byte) :
    PassesNotices fun h =>
      { h with previous := .taken, reply := some { tag := tag, body := body }, attn := true } := by
  refine ⟨fun _ => rfl, fun n s => ?_⟩
  unfold queueNotice
  split <;> rfl

/-- The state changes of an event read the host port, the time and the state. -/
theorem afterChanges_congr {s t : State} (hhost : t.host = s.host) (htime : t.time = s.time)
    (hst : t.controller.standIn = s.controller.standIn) (changes : List (StandIn × Reason)) :
    afterChanges changes t = afterChanges changes s := by
  induction changes generalizing s t with
  | nil => exact hhost
  | cons change rest ih => exact ih (afterChange_congr hhost htime hst _ _) htime rfl

theorem PassesNotices.afterChanges {g : HostPort → HostPort} (hg : PassesNotices g)
    (changes : List (StandIn × Reason)) (s : State) :
    afterChanges changes { s with host := g s.host } = g (afterChanges changes s) := by
  induction changes generalizing s with
  | nil => rfl
  | cons change rest ih =>
    have hone : afterChange { s with host := g s.host } change.1 change.2 = g (afterChange s change.1 change.2) := by
      unfold afterChange
      rw [show (g s.host).lost = s.host.lost from hg.1 _]
      exact hg.2 _ s
    have hrest := ih { s with
      host := afterChange s change.1 change.2, controller := { s.controller with standIn := change.1 } }
    rw [← hone] at hrest
    exact hrest

/-! TAKE BACK. -/

theorem markInFlight_bytes (n : Nat) (q : List HeldFrame) :
    (markInFlight n q).map (fun h => h.bytes) = q.map (fun h => h.bytes) := by
  induction q generalizing n with
  | nil => rw [markInFlight_nil]
  | cons h q ih =>
    cases n with
    | zero => rfl
    | succ n =>
      rw [markInFlight]
      split
      · exact congrArg (h.bytes :: ·) (ih n)
      · exact congrArg (h.bytes :: ·) (ih (n + 1))

theorem sendingStep_bytes (s : State) :
    (sendingStep s).hold.queue.map (fun h => h.bytes) = s.hold.queue.map (fun h => h.bytes) := by
  unfold sendingStep
  split
  · exact markInFlight_bytes _ _
  · rfl

theorem checkDrained_depth (s : State) : (checkDrained s).controller.depth = s.controller.depth := by
  by_cases h : drainComplete s = true
  · rw [checkDrained_of_drained h]
  · rw [checkDrained_of_not_drained h]

/-- What the entry to RETURNING leaves of the frames and the depth. -/
theorem enterReturning_leaves (reason : Reason) (outcome : WakeOutcome) (s : State) :
    (enterReturning reason outcome s).classifier.rules = s.classifier.rules
      ∧ (enterReturning reason outcome s).port.rxBuffer = s.port.rxBuffer
      ∧ (enterReturning reason outcome s).hold.queue.map (fun h => h.bytes) = s.hold.queue.map (fun h => h.bytes)
      ∧ (enterReturning reason outcome s).controller.depth = s.controller.depth := by
  obtain ⟨u, heq, _, hdepth, hhold, hport, hclassifier⟩ := enterReturning_eq reason outcome s
  obtain ⟨_, _, hc, _, _, hh, _, hp, _⟩ := checkDrained_keeps (sendingStep u)
  refine ⟨?_, ?_, ?_, ?_⟩
  · rw [heq, hc, (sendingStep_keeps u).2.2.2.1, hclassifier, markReached4]
  · rw [heq, hp, sendingStep_rxBuffer, hport]
  · rw [heq, hh, sendingStep_bytes, hhold]
  · rw [heq, checkDrained_depth, (sendingStep_keeps u).2.1, hdepth]

theorem emptyCheck_of_ne {body : List Byte} (h : body ≠ []) : emptyCheck body = some .badLength :=
  if_pos (mt List.length_eq_zero_iff.mp h)

theorem reqTakeBack_refused {s : State} (hstanding : s.controller.standIn ≠ .standing)
    (hcalling : s.controller.standIn ≠ .calling) (tag : Byte) : reqTakeBack tag [] s = refuse tag .wrongState s := by
  rw [reqTakeBack, judged_of_none emptyCheck_nil]
  split
  · contradiction
  · contradiction
  · rfl
  · rfl
  · rfl

theorem reqTakeBack_taken {s : State} {o : WakeOutcome}
    (h : (s.controller.standIn = .standing ∧ o = .self) ∨ (s.controller.standIn = .calling ∧ o = .claimed)) (tag : Byte) :
    reqTakeBack tag [] s = takeBack tag o s := by
  rw [reqTakeBack, judged_of_none emptyCheck_nil]
  obtain ⟨hst, rfl⟩ | ⟨hst, rfl⟩ := h
  · rw [hst]
  · rw [hst]

/-- Settles O43: the entry to RETURNING with the reply at the host port. -/
theorem takeBackReturnsPresence : Obligations.TakeBackReturnsPresence := by
  intro tag body s o hfree
  refine ⟨fun hbody => exec_refused hfree (k := .takeBack) ?_, fun hbody hstanding hcalling => ?_, fun hbody hst => ?_⟩
  · rw [runRequest, reqTakeBack, judged_of_some (emptyCheck_of_ne hbody)]
  · subst hbody
    refine exec_refused hfree (k := .takeBack) ?_
    exact reqTakeBack_refused (s := setPrevious .taken s) hstanding hcalling tag
  · subst hbody
    have hexec : exec (.takeBack tag []) s = .next (takeBack tag o (setPrevious .taken s)) := by
      rw [← reqTakeBack_taken (s := setPrevious .taken s) hst]
      exact exec_taken hfree .takeBack tag []
    obtain ⟨hhost, hresponder, hkeeper, hwake⟩ :=
      enterReturning_does (okReply tag (takeBackReply o (setPrevious .taken s)) (setPrevious .taken s)) .takenBack o
    obtain ⟨hrules, hbuffer, hbytes, hdepth⟩ := enterReturning_leaves .takenBack o
      (okReply tag (takeBackReply o (setPrevious .taken s)) (setPrevious .taken s))
    refine ⟨_, hexec, hhost.trans ?_, hwake, hkeeper, hresponder, hrules, ?_, ?_,
      enterReturning_txQueue _ _ _, hbuffer, hbytes, hdepth, enterReturning_standIn _ _ _⟩
    · exact (passesNotices_answered tag _).afterChanges (returnChanges .takenBack s) s
    · rw [takeBack, (enterReturning_keeps _ _ _).2.1]
      rfl
    · rw [takeBack, (enterReturning_keeps _ _ _).2.2.1]
      rfl

end Sys2Proof.Proofs
end

section
/-! PROOFS. The invitation of the waiting owners, and the settlement of a transmit slot (O46). -/

namespace Sys2Proof.Proofs

open Sys2Proof Sys2Proof.Machine

/-! The invitation. -/

/-- The number of the announcement list and the counts of its settled items stand. -/
def SameListCounts (s t : State) : Prop :=
  t.responder.build = s.responder.build ∧ t.responder.settledDone = s.responder.settledDone
    ∧ t.responder.settledRefused = s.responder.settledRefused

theorem SameListCounts.of_responder {s t : State} (h : t.responder = s.responder) : SameListCounts s t := by
  simp [SameListCounts, h]

theorem SameListCounts.trans {s t u : State} (h : SameListCounts s t) (h' : SameListCounts t u) :
    SameListCounts s u := by
  obtain ⟨hbuild, hdone, hrefused⟩ := h
  obtain ⟨hbuild', hdone', hrefused'⟩ := h'
  exact ⟨hbuild'.trans hbuild, hdone'.trans hdone, hrefused'.trans hrefused⟩

theorem offerDefence_listCounts (i : Nat) (s : State) : SameListCounts s (offerDefence i s) := by
  unfold offerDefence
  split
  · exact .of_responder rfl
  · split
    · simp [SameListCounts, modifyEntry]
    · exact .of_responder rfl

theorem offerDueReport_listCounts (i : Nat) (s : State) : SameListCounts s (offerDueReport i s) := by
  unfold offerDueReport
  split
  · exact .of_responder rfl
  · split
    · exact .of_responder rfl
    · split
      · simp [SameListCounts, modifyEntry]
      · exact .of_responder rfl

theorem offerList_listCounts (l : List Nat) (s : State) : SameListCounts s (offerList l s) := by
  induction l generalizing s with
  | nil => exact ⟨rfl, rfl, rfl⟩
  | cons i l ih =>
    unfold offerList
    split
    · exact ih s
    · dsimp only
      split
      · exact (SameListCounts.of_responder (by simp)).trans (ih _)
      · exact ⟨rfl, rfl, rfl⟩

theorem responderOffers_listCounts (s : State) : SameListCounts s (responderOffers s) := by
  have hdefences := foldl_pres (SameListCounts s) (fun u i => offerDefence i u)
    (fun u i h => h.trans (offerDefence_listCounts i u)) (List.range 24) s (.of_responder rfl)
  have hreports := foldl_pres (SameListCounts s) (fun u i => offerDueReport i u)
    (fun u i h => h.trans (offerDueReport_listCounts i u)) (List.range 24) _ hdefences
  exact hreports.trans (offerList_listCounts _ _)

theorem keeperOffers_responder (s : State) : (keeperOffers s).responder = s.responder := by simp

theorem invite_listCounts (s : State) : SameListCounts s (invite s) := by
  unfold invite
  split
  · split
    · have hoffers : SameListCounts s (keeperOffers (responderOffers s)) :=
        (responderOffers_listCounts s).trans (.of_responder (keeperOffers_responder _))
      dsimp only
      generalize keeperOffers (responderOffers s) = u at hoffers ⊢
      split
      · exact hoffers.trans (.of_responder rfl)
      · exact hoffers
    · have hoffers : SameListCounts s (responderOffers (keeperOffers s)) :=
        (SameListCounts.of_responder (keeperOffers_responder s)).trans (responderOffers_listCounts _)
      dsimp only
      generalize responderOffers (keeperOffers s) = u at hoffers ⊢
      split
      · exact hoffers.trans (.of_responder rfl)
      · exact hoffers
  · exact .of_responder rfl

theorem invite_of_idle {s : State} (h : s.controller.standIn.serving = false ∨ s.port.linkUp = false) :
    invite s = s := by
  refine if_neg ?_
  rintro ⟨hserving, hlink⟩
  rcases h with h | h
  · simp [h] at hserving
  · simp [h] at hlink

theorem responderKinds_iff (k : TxKind) : responderKinds k = true ↔ k = .announce ∨ k = .report := by
  simp [responderKinds]

theorem keeperKinds_iff (k : TxKind) : keeperKinds k = true ↔ k = .probe := by simp [keeperKinds]

/-- The items of the waiting owners joined the tail of the transmit queue, the owner that the grant turn named first (R155). -/
def ItemsJoined (s t : State) : Prop :=
  ∃ first second : List TxSlot,
    t.port.txQueue = s.port.txQueue ++ first ++ second
      ∧ ((s.controller.standIn.serving = false ∨ s.port.linkUp = false) → first = [] ∧ second = [])
      ∧ (s.port.turn = .responder →
          (∀ x ∈ first, x.kind = .announce ∨ x.kind = .report) ∧ (∀ x ∈ second, x.kind = .probe)
            ∧ t.port.turn = (if first = [] then .responder else .keeper))
      ∧ (s.port.turn = .keeper →
          (∀ x ∈ first, x.kind = .probe) ∧ (∀ x ∈ second, x.kind = .announce ∨ x.kind = .report)
            ∧ t.port.turn = (if first = [] then .keeper else .responder))

/-- What an invitation does in every state. -/
theorem invite_does (s : State) :
    (invite s).counters = s.counters ∧ (invite s).port.rxBuffer = s.port.rxBuffer
      ∧ (invite s).port.linkUp = s.port.linkUp ∧ ItemsJoined s (invite s) ∧ ProbesQueued s (invite s)
      ∧ (s.controller.standIn.serving = true → s.port.linkUp = true →
          8 ≤ (invite s).port.txQueue.length ∨ ((invite s).responder.list = [] ∧ pendingProbes (invite s) = [])) := by
  by_cases hidle : s.controller.standIn.serving = false ∨ s.port.linkUp = false
  · rw [invite_of_idle hidle]
    refine ⟨rfl, rfl, rfl, ⟨[], [], by simp, fun _ => ⟨rfl, rfl⟩, fun h => ?_, fun h => ?_⟩, fun _ => .inl rfl,
      fun hserving hlink => ?_⟩
    · exact ⟨fun x hx => absurd hx List.not_mem_nil, fun x hx => absurd hx List.not_mem_nil, by simp [h]⟩
    · exact ⟨fun x hx => absurd hx List.not_mem_nil, fun x hx => absurd hx List.not_mem_nil, by simp [h]⟩
    · simp [hserving, hlink] at hidle
  · rw [not_or] at hidle
    obtain ⟨hserving, hlink⟩ := hidle
    obtain ⟨hcounters, ⟨first, second, hqueue, hresponder, hkeeper⟩, hbuffer, hup, hroom, hprobes⟩ :=
      invite_spec s (by simpa using hserving) (by simpa using hlink)
    refine ⟨hcounters, hbuffer, hup, ⟨first, second, hqueue, fun h => ?_, fun h => ?_, fun h => ?_⟩, hprobes,
      fun _ _ => hroom⟩
    · exact absurd h (not_or.mpr ⟨hserving, hlink⟩)
    · simpa only [responderKinds_iff, keeperKinds_iff] using hresponder h
    · simpa only [responderKinds_iff, keeperKinds_iff] using hkeeper h

/-! The owner of a settled slot. -/

theorem exec_settled {s : State} {slot : TxSlot} {rest : List TxSlot} (hqueue : s.port.txQueue = slot :: rest)
    (done : Bool) :
    exec (if done then .txDone else .txRefused) s =
      .next (invite (tellOwner slot.owner done
        { s with
          port := { s.port with txQueue := rest }
          counters := s.counters.add (if done then .transmitted slot.kind else .txRefused) 1 })) := by
  cases done
  · refine congrArg Host.Outcome.next ?_
    rw [settleTx, hqueue]
    rfl
  · refine congrArg Host.Outcome.next ?_
    rw [settleTx, hqueue]
    rfl

theorem unsettled_of_slot {s : State} {slot : TxSlot} {rest : List TxSlot} (hqueue : s.port.txQueue = slot :: rest)
    {entry : Nat} (howner : slot.owner = .listItem s.responder.build entry) :
    unsettled s = unsettled { s with port := { s.port with txQueue := rest } } + 1 := by
  simp only [unsettled, hqueue, List.filter_cons, howner, beq_self_eq_true, if_true, List.length_cons]
  omega

/-- An item that is not of the present list, or settled outside ARMING, is settled without a count. -/
theorem settleListItem_of_not {build : Nat} {s : State}
    (h : s.controller.standIn ≠ .arming ∨ build ≠ s.responder.build) (done : Bool) : settleListItem build done s = s := by
  refine if_neg ?_
  rintro ⟨hst, hbuild⟩
  rcases h with h | h
  · exact h hst
  · exact h hbuild

theorem settleListItem_of_arming {s : State} (hst : s.controller.standIn = .arming) (done : Bool) :
    settleListItem s.responder.build done s =
      checkArmingEnd
        { s with
          responder :=
            { s.responder with
              settledDone := s.responder.settledDone + (if done then 1 else 0)
              settledRefused := s.responder.settledRefused + (if done then 0 else 1) } } := if_pos ⟨hst, rfl⟩

/-- A settlement of no item of the present list in ARMING leaves the controller, the responder, the wake unit and the host
port. -/
theorem tellOwner_leaves {owner : TxOwner} {s : State} (done : Bool)
    (h : ∀ build entry, owner = .listItem build entry →
      s.controller.standIn ≠ .arming ∨ build ≠ s.responder.build) :
    (tellOwner owner done s).controller = s.controller ∧ (tellOwner owner done s).responder = s.responder
      ∧ (tellOwner owner done s).wake = s.wake ∧ (tellOwner owner done s).host = s.host := by
  cases owner with
  | listItem build entry =>
    rw [tellOwner, settleListItem_of_not (h build entry rfl)]
    exact ⟨rfl, rfl, rfl, rfl⟩
  | probe i number => exact ⟨rfl, rfl, rfl, rfl⟩
  | untold => exact ⟨rfl, rfl, rfl, rfl⟩
  | defence entry => exact ⟨rfl, rfl, rfl, rfl⟩
  | dueReport entry => exact ⟨rfl, rfl, rfl, rfl⟩

theorem endArming_serving (linkDown : Bool) (s : State) :
    (endArming linkDown s).controller.standIn.serving = true := by
  unfold endArming
  dsimp only
  split
  · simp [changeState_eq, StandIn.serving]
  · simp [enterCalling_eq, StandIn.serving]

theorem checkArmingEnd_serving (s : State) :
    (checkArmingEnd s).controller.standIn.serving = s.controller.standIn.serving := by
  unfold checkArmingEnd
  split
  · rename_i h
    rw [endArming_serving, h.1]
    rfl
  · rfl

theorem tellOwner_serving (owner : TxOwner) (done : Bool) (s : State) :
    (tellOwner owner done s).controller.standIn.serving = s.controller.standIn.serving := by
  cases owner with
  | listItem build entry =>
    rw [tellOwner]
    unfold settleListItem
    split
    · exact checkArmingEnd_serving _
    · rfl
  | probe i number => rfl
  | untold => rfl
  | defence entry => rfl
  | dueReport entry => rfl

/-! The session of a settled probe. -/

/-- A settled probe counts where it was transmitted, but not after the return nor for a probe of an earlier record. -/
def countedProbe (x : Session) (n : Nat) (done : Bool) : Session :=
  if x.state = .returned ∨ n < x.firstProbe then x
  else if done then { x with probesSent := min 4294967295 (x.probesSent + 1) } else x

theorem settleProbe_current {x : Session} {n : Nat} (hst : x.state = .probing) (hphase : x.phase = .queued)
    (hid : x.probeId = n) (hfirst : x.firstProbe ≤ n) (done : Bool) (now : Time) :
    x.settleProbe n done now =
      { (if done then { x with probesSent := min 4294967295 (x.probesSent + 1) } else x) with
        phase := .timing, deadline := some (now + BitVec.ofNat 32 (x.timeout * 1000)) } := by
  have hstands : ¬ (n < x.firstProbe ∨ x.state = .returned) := by simp [hst, hfirst]
  have hcurrent : x.isCurrent n = true := by simp [Session.isCurrent, hst, hphase, hid]
  unfold Session.settleProbe
  rw [if_neg hstands, if_pos hcurrent]
  cases done <;> rfl

theorem settleProbe_other {x : Session} {n : Nat}
    (h : ¬ (x.state = .probing ∧ x.phase = .queued ∧ x.probeId = n ∧ x.firstProbe ≤ n)) (done : Bool) (now : Time) :
    x.settleProbe n done now = countedProbe x n done := by
  unfold Session.settleProbe countedProbe
  by_cases hstands : n < x.firstProbe ∨ x.state = .returned
  · rw [if_pos hstands, if_pos hstands.symm]
  · have hcurrent : ¬ x.isCurrent n = true := by
      simp only [Session.isCurrent, Bool.and_eq_true, beq_iff_eq]
      rintro ⟨⟨hst, hphase⟩, hid⟩
      exact h ⟨hst, hphase, hid, Nat.le_of_not_lt (fun hlt => hstands (.inl hlt))⟩
    rw [if_neg hstands, if_neg hcurrent, if_neg (mt Or.symm hstands)]
    cases done <;> rfl

/-- What the settlement of a slot leaves for its owner, and the invitation after it (R99, R154, R155). -/
theorem tellOwner_probe {s : State} {i n : Nat} {x : Session} (hx : lookup s.keeper.sessions i = some x) (done : Bool) :
    lookup (tellOwner (.probe i n) done s).keeper.sessions i = some (x.settleProbe n done s.time) := by
  have hmodified := lookup_modifyAt_self s.keeper.sessions i (fun x => x.settleProbe n done s.time)
  rw [hx] at hmodified
  exact hmodified

theorem ProbesQueued.lookup_of_not_pending {s t : State} (h : ProbesQueued s t) {i : Nat} {x : Session}
    (hx : lookup s.keeper.sessions i = some x) (hphase : x.phase ≠ .pending) : lookup t.keeper.sessions i = some x := by
  rcases h i with hsame | ⟨y, n, hy, _, hpending, _⟩
  · exact hsame.trans hx
  · obtain rfl := Option.some.inj (hx.symm.trans hy)
    exact absurd hpending hphase

theorem ProbesQueued.lookup_cases {s t : State} (h : ProbesQueued s t) {i : Nat} {x : Session}
    (hx : lookup s.keeper.sessions i = some x) : ∃ y, lookup t.keeper.sessions i = some y
      ∧ (y = x ∨ (x.state = .probing ∧ x.phase = .pending ∧ y = { x with phase := .queued, probeId := y.probeId })) := by
  rcases h i with hsame | ⟨y, n, hy, hst, hpending, hqueued⟩
  · exact ⟨x, hsame.trans hx, .inl rfl⟩
  · obtain rfl := Option.some.inj (hx.symm.trans hy)
    exact ⟨_, hqueued, .inr ⟨hst, hpending, rfl⟩⟩

/-- An item of the present list settled in ARMING: arming goes on, or ends with the reply (R8, R10). -/
theorem settleListItem_does {s : State} (hst : s.controller.standIn = .arming) (done : Bool) :
    let u := settleListItem s.responder.build done s
    u.responder.settledDone = s.responder.settledDone + (if done then 1 else 0)
      ∧ u.responder.settledRefused = s.responder.settledRefused + (if done then 0 else 1)
      ∧ (unsettled s ≠ 0 → u.controller = s.controller ∧ u.wake = s.wake ∧ u.host = s.host)
      ∧ (unsettled s = 0 → ∀ tag, s.host.inFlight = some tag →
          u.controller.standIn = (if s.wake.record.enabled = 0 then .standing else .calling)
            ∧ u.host.inFlight = none
            ∧ u.host.reply =
                some
                  { tag := tag,
                    body :=
                      [0, 0, byte u.responder.settledDone, byte u.responder.settledRefused] ++ be32 s.time.toNat }) := by
  dsimp only
  rw [settleListItem_of_arming hst]
  refine ⟨by simp, by simp, fun hleft => ?_, fun hnone tag hflight => ?_⟩
  · rw [checkArmingEnd, if_neg (fun h => hleft h.2)]
    exact ⟨rfl, rfl, rfl⟩
  · rw [checkArmingEnd, if_pos ⟨hst, hnone⟩]
    obtain ⟨_, hstate, hhost⟩ := endArming_does false
      { s with
        responder :=
          { s.responder with
            settledDone := s.responder.settledDone + (if done then 1 else 0)
            settledRefused := s.responder.settledRefused + (if done then 0 else 1) } } tag hst hflight
    refine ⟨hstate, ?_, ?_⟩
    · rw [hhost]
    · rw [hhost, (endArming_keeps _ _).2.1]
      rfl

/-- Settles O46: the owner is told, and the waiting owners are invited. -/
theorem settlementFreesOldestSlot : Obligations.SettlementFreesOldestSlot := by
  refine ⟨fun s hempty => ?_, fun s slot rest done hqueue => ?_⟩
  · have hnothing : ∀ done, settleTx done s = s := fun done => by rw [settleTx, hempty]
    exact ⟨congrArg Host.Outcome.next (hnothing true), congrArg Host.Outcome.next (hnothing false)⟩
  · let v : State :=
      { s with
        port := { s.port with txQueue := rest }
        counters := s.counters.add (if done then .transmitted slot.kind else .txRefused) 1 }
    have hserving : (tellOwner slot.owner done v).controller.standIn.serving = s.controller.standIn.serving :=
      tellOwner_serving slot.owner done v
    have hleaves := tellOwner_leaves (owner := slot.owner) (s := v) done
    have hprobe : ∀ i n x, slot.owner = .probe i n → lookup s.keeper.sessions i = some x →
        lookup (tellOwner slot.owner done v).keeper.sessions i = some (x.settleProbe n done s.time) :=
      fun i n x howner hx => by rw [howner]; exact tellOwner_probe (s := v) hx done
    have hitem : ∀ entry, slot.owner = .listItem s.responder.build entry →
        tellOwner slot.owner done v = settleListItem s.responder.build done v :=
      fun entry howner => by rw [howner, tellOwner]
    obtain ⟨_, hclassifier, hbuilder, hhold, hport, hcounters, _⟩ := tellOwner_keeps slot.owner done v
    have hexec : exec (if done then .txDone else .txRefused) s = .next (invite (tellOwner slot.owner done v)) :=
      exec_settled hqueue done
    generalize tellOwner slot.owner done v = u at *
    obtain ⟨hinvited, hbuffer, hlink, ⟨first, second, hjoined, hidle, hresponder, hkeeper⟩, hprobes, hroom⟩ := invite_does u
    obtain ⟨_, hcontroller', hclassifier', hbuilder', hhold', hwake', hhost', _⟩ := invite_keeps u
    obtain ⟨_, hdone', hrefused'⟩ := invite_listCounts u
    rw [hserving, hport] at hidle hroom
    rw [hport] at hjoined hresponder hkeeper hbuffer hlink
    refine ⟨_, hexec, hinvited.trans hcounters, hbuffer, hlink, hhold'.trans hhold, hclassifier'.trans hclassifier,
      hbuilder'.trans hbuilder, ⟨first, second, hjoined, hidle, hresponder, hkeeper⟩, hroom, fun i n x howner hx => ?_,
      fun hother => ?_, fun entry howner hst => ?_⟩
    · have hu := hprobe i n x howner hx
      refine ⟨fun hst hphase hid hfirst => ?_, fun hother => ?_⟩
      · rw [settleProbe_current hst hphase hid hfirst] at hu
        exact ProbesQueued.lookup_of_not_pending (s := u) hprobes hu (by simp)
      · rw [settleProbe_other hother] at hu
        exact ProbesQueued.lookup_cases (s := u) hprobes hu
    · obtain ⟨hcontroller, hresponder, hwake, hhost⟩ := hleaves hother
      refine ⟨?_, ?_, hcontroller'.trans hcontroller, hwake'.trans hwake, hhost'.trans hhost⟩
      · rw [hdone', hresponder]
      · rw [hrefused', hresponder]
    · have hslot := unsettled_of_slot hqueue howner
      obtain ⟨hdone, hrefused, hgoes, hends⟩ := settleListItem_does (s := v) hst done
      rw [← hitem entry howner] at hdone hrefused hgoes hends
      have hv : unsettled v + 1 = unsettled s := hslot.symm
      rw [hdone', hrefused', hcontroller', hwake', hhost']
      refine ⟨hdone, hrefused, fun hmany => hgoes (by omega), fun hlast tag hflight => ?_⟩
      exact hends (by omega) tag hflight

end Sys2Proof.Proofs
end

section
/-! PROOFS. Which items join the transmit queue, the link records, and PORT_RESET (O48, O49). -/

namespace Sys2Proof.Proofs

open Sys2Proof Sys2Proof.Machine

/-! The probes and the list's items that join the transmit queue. -/

/-- Only probes have joined the transmit queue. -/
def ProbesJoined (s t : State) : Prop :=
  ∃ new, t.port.txQueue = s.port.txQueue ++ new ∧ ∀ x ∈ new, ∃ i n, x.owner = .probe i n

theorem ProbesJoined.of_port {s t : State} (h : t.port = s.port) : ProbesJoined s t :=
  ⟨[], by simp [h], fun x hx => absurd hx List.not_mem_nil⟩

theorem ProbesJoined.trans {s t u : State} (h : ProbesJoined s t) (h' : ProbesJoined t u) : ProbesJoined s u := by
  obtain ⟨new, hqueue, howners⟩ := h
  obtain ⟨new', hqueue', howners'⟩ := h'
  refine ⟨new ++ new', by rw [hqueue', hqueue, List.append_assoc], fun x hx => ?_⟩
  rcases List.mem_append.mp hx with hx | hx
  · exact howners x hx
  · exact howners' x hx

theorem offerTx_probe_joined (i n : Nat) (frame : List Byte) (s : State) :
    ProbesJoined s (offerTx .probe (.probe i n) frame s) := by
  unfold offerTx
  split
  · exact ⟨[_], rfl, fun x hx => ⟨i, n, by rw [List.mem_singleton.mp hx]⟩⟩
  · exact .of_port rfl
  · exact .of_port rfl

theorem offerProbe_joined (i : Nat) (s : State) : ProbesJoined s (offerProbe i s) := by
  unfold offerProbe
  split
  · exact .of_port rfl
  · split
    · dsimp only
      split
      · exact offerTx_probe_joined i s.keeper.nextProbe _ s
      · exact offerTx_probe_joined i s.keeper.nextProbe _ s
    · exact .of_port rfl

theorem keeperOffers_joined (s : State) : ProbesJoined s (keeperOffers s) :=
  foldl_pres (ProbesJoined s) (fun u i => offerProbe i u) (fun u i h => h.trans (offerProbe_joined i u)) _ s
    (.of_port rfl)

theorem listItemsOf_append (build : Nat) (first second : List TxSlot) :
    listItemsOf build (first ++ second) = listItemsOf build first ++ listItemsOf build second := List.filterMap_append

theorem listItemsOf_probes {slots : List TxSlot} (h : ∀ x ∈ slots, ∃ i n, x.owner = .probe i n) (build : Nat) :
    listItemsOf build slots = [] := by
  refine List.filterMap_eq_nil_iff.mpr fun x hx => ?_
  obtain ⟨i, n, howner⟩ := h x hx
  rw [howner]

theorem listItemsOf_placed {build : Nat} {slots : List TxSlot} {placed : List Nat}
    (h : slots.map (fun x => x.owner) = placed.map (TxOwner.listItem build)) : listItemsOf build slots = placed := by
  induction slots generalizing placed with
  | nil => exact (List.map_eq_nil_iff.mp h.symm).symm
  | cons slot slots ih =>
    cases placed with
    | nil => simp at h
    | cons i placed =>
      simp only [List.map_cons, List.cons.injEq] at h
      obtain ⟨howner, hrest⟩ := h
      simp only [listItemsOf, List.filterMap_cons, howner, if_true]
      exact congrArg (i :: ·) (ih hrest)

/-- The present list's items in the queue from one state on, with those still pending, are the items l; the rest of the
responder stands. -/
def ListJoined (l : List Nat) (s t : State) : Prop :=
  t.responder = { s.responder with list := t.responder.list }
    ∧ ∃ new, t.port.txQueue = s.port.txQueue ++ new
      ∧ listItemsOf s.responder.build new ++ t.responder.list = l

theorem offerList_joined {l : List Nat} {s : State} (hl : ∀ i ∈ l, (lookup s.responder.entries i).isSome = true) :
    ListJoined l s (offerList l s) := by
  obtain ⟨hresponder, new, hqueue, placed, howners, hitems⟩ := offerList_items l s hl
  exact ⟨hresponder, new, hqueue, by rw [listItemsOf_placed howners, hitems]⟩

theorem ListJoined.probes_after {l : List Nat} {s t u : State} (h : ListJoined l s t) (hprobes : ProbesJoined t u)
    (hresponder : u.responder = t.responder) : ListJoined l s u := by
  obtain ⟨hlist, new, hqueue, hitems⟩ := h
  obtain ⟨new', hqueue', howners⟩ := hprobes
  refine ⟨by rw [hresponder]; exact hlist, new ++ new', by rw [hqueue', hqueue, List.append_assoc], ?_⟩
  rw [listItemsOf_append, listItemsOf_probes howners, List.append_nil, hresponder, hitems]

theorem ListJoined.probes_before {l : List Nat} {s t u : State} (h : ListJoined l t u) (hprobes : ProbesJoined s t)
    (hresponder : t.responder = s.responder) : ListJoined l s u := by
  obtain ⟨hlist, new, hqueue, hitems⟩ := h
  obtain ⟨new', hqueue', howners⟩ := hprobes
  refine ⟨by rw [← hresponder]; exact hlist, new' ++ new, by rw [hqueue, hqueue', List.append_assoc], ?_⟩
  rw [listItemsOf_append, listItemsOf_probes howners, List.nil_append, ← hresponder, hitems]

/-- No defence is pending and no report is due. -/
def OnlyListWaits (s : State) : Prop :=
  ∀ i e, lookup s.responder.entries i = some e → e.defence = false ∧ ∀ r, e.report = some r → r.due = false

theorem responderOffers_of_onlyListWaits {s : State} (h : OnlyListWaits s) :
    responderOffers s = offerList s.responder.list s := by
  have hdefence : ∀ i, offerDefence i s = s := fun i => by
    unfold offerDefence
    split
    · rfl
    · rename_i e he
      exact if_neg (by simp [(h i e he).1])
  have hreport : ∀ i, offerDueReport i s = s := fun i => by
    unfold offerDueReport
    split
    · rfl
    · rename_i e he
      split
      · rfl
      · rename_i r hr
        exact if_neg (by simp [(h i e he).2 r hr])
  have hdefences : ∀ l : List Nat, l.foldl (fun s i => offerDefence i s) s = s := fun l => by
    induction l with
    | nil => rfl
    | cons i l ih => rw [List.foldl_cons, hdefence, ih]
  have hreports : ∀ l : List Nat, l.foldl (fun s i => offerDueReport i s) s = s := fun l => by
    induction l with
    | nil => rfl
    | cons i l ih => rw [List.foldl_cons, hreport, ih]
  rw [responderOffers, hdefences, hreports]

/-- Where only the list waits of the responder's items, an invitation places its items and probes. -/
theorem invite_joined {s : State} (hwaits : OnlyListWaits s) (hserving : s.controller.standIn.serving = true)
    (hlink : s.port.linkUp = true) (hlist : ∀ i ∈ s.responder.list, (lookup s.responder.entries i).isSome = true) :
    ListJoined s.responder.list s (invite s) := by
  rw [invite, if_pos ⟨hserving, hlink⟩]
  cases s.port.turn with
  | responder =>
    have hoffers : ListJoined s.responder.list s (keeperOffers (responderOffers s)) := by
      rw [responderOffers_of_onlyListWaits hwaits]
      exact (offerList_joined hlist).probes_after (keeperOffers_joined _) (keeperOffers_responder _)
    dsimp only
    generalize keeperOffers (responderOffers s) = u at hoffers ⊢
    split
    · exact hoffers
    · exact hoffers
  | keeper =>
    have hsame := keeperOffers_responder s
    have hoffers : ListJoined s.responder.list s (responderOffers (keeperOffers s)) := by
      rw [responderOffers_of_onlyListWaits (by unfold OnlyListWaits; rw [hsame]; exact hwaits), hsame]
      exact (offerList_joined (by rw [hsame]; exact hlist)).probes_before (keeperOffers_joined s) hsame
    dsimp only
    generalize responderOffers (keeperOffers s) = u at hoffers ⊢
    split
    · exact hoffers
    · exact hoffers

/-! A change of the link. -/

/-- The link as a record changes it, with the notice of the change (R160). -/
def linkTurned (up : Bool) (record : LinkRecord) (s : State) : State :=
  { s with port := { s.port with linkUp := up }, host := afterLink s up record }

theorem queueNotice_linkNotice (up : Bool) (record : LinkRecord) (s : State) :
    queueNotice (linkNotice s up record) { s with port := { s.port with linkUp := up } } = linkTurned up record s := by
  rw [queueNotice_eq]
  unfold linkTurned afterLink linkNotice queueNotice
  split <;> rfl

/-- The report of the LINK cause (R157). -/
def linkReport : Report := { cause := .link, origin := none, frame := none }

theorem loseLink_eq (record : LinkRecord) (s : State) :
    loseLink record s =
      if (reportCause linkReport (linkTurned false record s)).controller.standIn = .arming then
        endArming true (reportCause linkReport (linkTurned false record s))
      else reportCause linkReport (linkTurned false record s) := by
  unfold loseLink
  rw [queueNotice_linkNotice]
  rfl

theorem loseLink_of_not_serving {s : State} (h : s.controller.standIn.serving = false) (record : LinkRecord) :
    loseLink record s = linkTurned false record s := by
  rw [loseLink_eq, reportCause_carried _ _ (by exact h), if_neg]
  intro harming
  rw [show s.controller.standIn = .arming from harming] at h
  cases h

theorem reportCause_standIn_of_standing {r : Report} {s : State}
    (h : s.controller.standIn = .standing ∨ s.controller.standIn = .calling) :
    (reportCause r s).controller.standIn = .standing ∨ (reportCause r s).controller.standIn = .calling := by
  have hserving : s.controller.standIn.serving = true := by rcases h with h | h <;> rw [h] <;> rfl
  rw [reportCause_of_serving hserving]
  split
  · rw [enterCalling_eq]
    exact .inr rfl
  · exact h

theorem loseLink_of_standing {s : State} (h : s.controller.standIn = .standing ∨ s.controller.standIn = .calling)
    (record : LinkRecord) : loseLink record s = reportCause linkReport (linkTurned false record s) := by
  rw [loseLink_eq, if_neg]
  intro harming
  have hst := reportCause_standIn_of_standing (r := linkReport) (s := linkTurned false record s) h
  simp [harming] at hst

theorem endArming_noted (linkDown : Bool) (s : State) :
    (endArming linkDown s).wake.record.noted = s.wake.record.noted := by
  simp only [endArming, enterCalling, beginCalling, startAttempt, startClaim]
  (repeat' split) <;> simp

/-- A link lost in ARMING ends it (R11). -/
theorem loseLink_of_arming {s : State} (h : s.controller.standIn = .arming) (record : LinkRecord) {tag : Byte}
    (hflight : s.host.inFlight = some tag) :
    let t := loseLink record s
    t.wake.record.noted = s.wake.record.noted.join .link
      ∧ t.controller.standIn = (if t.wake.record.enabled = 0 then .standing else .calling)
      ∧ t.host.inFlight = none
      ∧ t.host.reply =
          some
            { tag := tag,
              body := [0, 1, byte s.responder.settledDone, byte s.responder.settledRefused] ++ be32 s.time.toNat } := by
  have hnoted := reportCause_noted linkReport (linkTurned false record s) (show s.controller.standIn.serving = true by rw [h]; rfl)
  obtain ⟨w, hw⟩ := reportCause_of_not_standing linkReport (s := linkTurned false record s)
    (show s.controller.standIn ≠ .standing by simp [h])
  have hflight' : (linkTurned false record s).host.inFlight = some tag := by
    rw [← hflight]
    exact queueNotice_inFlight _ s
  dsimp only
  rw [loseLink_eq, hw, if_pos (by exact h)]
  rw [hw] at hnoted
  obtain ⟨henabled, hstate, hhost⟩ := endArming_does true { linkTurned false record s with wake := w } tag h hflight'
  refine ⟨(endArming_noted _ _).trans hnoted, ?_, ?_, ?_⟩
  · rw [hstate, henabled]
  · rw [hhost]
  · rw [hhost]
    rfl

/-- A link lost leaves all but the controller, the wake unit, the port's link and the host port. -/
theorem loseLink_leaves (record : LinkRecord) (s : State) :
    (loseLink record s).port = { s.port with linkUp := false } ∧ (loseLink record s).responder = s.responder
      ∧ (loseLink record s).keeper = s.keeper ∧ (loseLink record s).hold = s.hold
      ∧ (loseLink record s).counters = s.counters ∧ (loseLink record s).builder = s.builder
      ∧ (loseLink record s).classifier = s.classifier := by
  rw [loseLink_eq]
  split <;> simp [linkTurned]

theorem reportCause_of_disabled {r : Report} {s : State} (h : causeEnabled s.wake r.cause = false) :
    (reportCause r s).controller = s.controller ∧ (reportCause r s).host = s.host := by
  unfold reportCause
  split
  · rw [if_neg (by simp [h])]
    exact ⟨rfl, rfl⟩
  · exact ⟨rfl, rfl⟩

/-! The link records. -/

theorem raiseLink_of_not_serving {s : State} (h : s.controller.standIn.serving = false) :
    raiseLink s = sendingStep (linkTurned true .linkUp s) := by
  have hidle : ¬ (s.controller.standIn = .standing ∨ s.controller.standIn = .calling) := by
    rintro (hst | hst) <;> simp [hst, StandIn.serving] at h
  unfold raiseLink
  rw [queueNotice_linkNotice]
  dsimp only
  rw [if_neg (by exact hidle), invite_of_idle (.inl (by exact h))]

theorem raiseLink_of_standing {s : State} (h : s.controller.standIn = .standing ∨ s.controller.standIn = .calling) :
    raiseLink s = invite (rebuildList (linkTurned true .linkUp s)) := by
  unfold raiseLink
  rw [queueNotice_linkNotice]
  dsimp only
  rw [if_pos (by exact h), sendingStep_of_not_returning]
  rw [(invite_keeps _).2.1]
  intro hreturning
  rw [show s.controller.standIn = .returning from hreturning] at h
  simp at h

theorem lookup_mapTable {α : Type} (l : List (Option α)) (f : α → α) (i : Nat) :
    lookup (mapTable l f) i = (lookup l i).map f := by
  unfold lookup mapTable
  simp only [List.getD_eq_getElem?_getD, List.getElem?_map]
  cases l[i]? <;> rfl

theorem lookup_isSome_of_announced {entries : List (Option IdentityEntry)} {i : Nat} (h : i ∈ announcementList entries) :
    (lookup entries i).isSome = true := by
  obtain ⟨p, hp, rfl⟩ := List.mem_map.mp h
  rw [lookup_of_mem_occupied (List.mem_filter.mp hp).1]
  rfl

theorem rebuildList_entries (s : State) : (rebuildList s).responder.entries =
    mapTable s.responder.entries (fun e =>
      { e with defence := false, report := e.report.filter (fun r => !r.due) }) := by
  unfold rebuildList
  dsimp only
  congr 1
  funext e
  cases hreport : e.report with
  | none => rfl
  | some r => cases hdue : r.due <;> simp [Option.filter, hdue]

theorem rebuildList_onlyListWaits (s : State) : OnlyListWaits (rebuildList s) := by
  intro i e he
  rw [rebuildList_entries, lookup_mapTable] at he
  obtain ⟨e', _, rfl⟩ := Option.map_eq_some_iff.mp he
  refine ⟨rfl, fun r hr => ?_⟩
  simpa using (Option.filter_eq_some_iff.mp hr).2

/-- Settles O48: the link's changes by the state. -/
theorem linkRecordsChangeLink : Obligations.LinkRecordsChangeLink := by
  intro s
  have hup : s.port.linkUp = false → exec .linkUp s = .next (raiseLink s) := fun hlink =>
    congrArg Host.Outcome.next (if_neg (by simp [hlink]))
  have hdown : s.port.linkUp = true → exec .linkDown s = .next (loseLink .linkDown s) := fun hlink =>
    congrArg Host.Outcome.next (if_pos hlink)
  refine ⟨fun hlink => congrArg Host.Outcome.next (if_pos hlink),
    fun hlink => congrArg Host.Outcome.next (if_neg (by simp [hlink])), fun hlink hst => ?_, fun hlink hst => ?_,
    fun hlink hst => ?_, fun hlink hst => ?_, fun tag hlink hst hflight => ?_, fun hlink hst => ?_⟩
  · rw [hup hlink, raiseLink_of_not_serving (by rw [hst]; rfl), sendingStep_of_not_returning (by simp [linkTurned, hst])]
    rfl
  · rw [hup hlink, raiseLink_of_not_serving (by rw [hst]; rfl)]
    rfl
  · rw [hdown hlink, loseLink_of_not_serving (by rcases hst with hst | hst <;> rw [hst] <;> rfl)]
    rfl
  · obtain ⟨hport, hresponder, hkeeper, hhold, hcounters, _⟩ := loseLink_leaves .linkDown s
    refine ⟨_, hdown hlink, hport, ?_, fun hdisabled => ?_, hresponder, hkeeper, hhold, hcounters⟩
    · rw [loseLink_of_standing hst]
      exact reportCause_noted linkReport (linkTurned false .linkDown s)
        (show s.controller.standIn.serving = true by rcases hst with hst | hst <;> rw [hst] <;> rfl)
    · rw [loseLink_of_standing hst]
      exact reportCause_of_disabled (r := linkReport) (s := linkTurned false .linkDown s) hdisabled
  · obtain ⟨hport, _⟩ := loseLink_leaves .linkDown s
    obtain ⟨hnoted, hstate, hnone, hreply⟩ := loseLink_of_arming hst .linkDown hflight
    refine ⟨_, hdown hlink, hport, hnoted, ?_, hnone, hreply⟩
    rw [hstate]
    split
    · exact .inl rfl
    · exact .inr rfl
  · have hserving : s.controller.standIn.serving = true := by rcases hst with hst | hst <;> rw [hst] <;> rfl
    let u := rebuildList (linkTurned true .linkUp s)
    obtain ⟨hresponder, new, hqueue, hitems⟩ := invite_joined (s := u) (rebuildList_onlyListWaits _) hserving rfl
      (fun i hi => by
        rw [rebuildList_entries, lookup_mapTable, Option.isSome_map]
        exact lookup_isSome_of_announced hi)
    obtain ⟨hcounters, _, hlinkUp, _, _, hroom⟩ := invite_does u
    obtain ⟨_, hcontroller, hclassifier, hbuilder, hhold, hwake, hhost, _⟩ := invite_keeps u
    have hbuild : (invite u).responder.build = s.responder.build + 1 := by rw [hresponder]; rfl
    refine ⟨invite u, new, ?_, hlinkUp, hqueue, ?_, hbuild, ?_, hroom hserving rfl, hhost, hcontroller, hwake, hcounters,
      hhold, hclassifier, hbuilder⟩
    · rw [hup hlink, raiseLink_of_standing hst]
    · rw [hresponder]
      exact rebuildList_entries _
    · rw [hbuild]
      exact hitems

/-! PORT_RESET. -/

/-- What the reset does at the port and the blocks it reaches. -/
theorem clearPort_eq (s : State) : clearPort s =
    { s with
      port := { s.port with rxBuffer := [], txQueue := [] }
      hold := { s.hold with queue := s.hold.queue.map (fun h => { h with delivery := .waiting }), forgotten := 0 }
      counters :=
        ((s.counters.add .receiveRefused s.port.rxBuffer.length).add (.dropped .answer)
            (s.port.txQueue.filter (fun x => x.kind == .answer)).length).add (.dropped .ack)
          (s.port.txQueue.filter (fun x => x.kind == .ack)).length
      responder :=
        { s.responder with
          list := [], entries := s.responder.entries.map (Option.map (fun e => { e with defence := false })) }
      keeper :=
        if s.controller.standIn.serving then
          { s.keeper with
            sessions :=
              s.keeper.sessions.map (Option.map (fun x =>
                if x.state = .probing ∧ x.phase = .queued then { x with phase := .pending } else x)) }
        else s.keeper } := by
  cases hserving : s.controller.standIn.serving
  · simp [clearPort, countDropped, count, resetDeliveries, requeueProbes, dropAnnouncements, mapTable, hserving]
  · simp [clearPort, countDropped, count, resetDeliveries, requeueProbes, dropAnnouncements, mapTable, hserving]

theorem afterLink_congr {s t : State} (hhost : t.host = s.host) (htime : t.time = s.time) (up : Bool)
    (record : LinkRecord) : afterLink t up record = afterLink s up record := by
  unfold afterLink queueNotice
  rw [hhost, htime]
  split <;> rfl

/-- A PORT_RESET before the return that it may end. -/
def resetLink (s : State) : State := if s.port.linkUp then loseLink .portReset (clearPort s) else clearPort s

theorem exec_portReset (s : State) :
    exec .portReset s = .next (checkDrained (sendRecord (.ready 6) (resetLink s))) := rfl

theorem clearPort_leaves (s : State) :
    (clearPort s).controller = s.controller ∧ (clearPort s).wake = s.wake ∧ (clearPort s).host = s.host
      ∧ (clearPort s).time = s.time := by
  rw [clearPort_eq]
  exact ⟨rfl, rfl, rfl, rfl⟩

theorem resetLink_of_down {s : State} (h : s.port.linkUp = false) : resetLink s = clearPort s :=
  if_neg (by simp [h])

theorem resetLink_of_up {s : State} (h : s.port.linkUp = true) : resetLink s = loseLink .portReset (clearPort s) :=
  if_pos h

theorem resetLink_port (s : State) : (resetLink s).port = { s.port with rxBuffer := [], txQueue := [], linkUp := false } := by
  cases hlink : s.port.linkUp
  · rw [resetLink_of_down hlink, clearPort_eq, ← hlink]
  · rw [resetLink_of_up hlink, (loseLink_leaves _ _).1, clearPort_eq]

/-- A PORT_RESET changes the blocks that the port reaches as clearPort says. -/
theorem resetLink_leaves (s : State) :
    (resetLink s).responder = (clearPort s).responder ∧ (resetLink s).keeper = (clearPort s).keeper
      ∧ (resetLink s).hold = (clearPort s).hold ∧ (resetLink s).counters = (clearPort s).counters
      ∧ (resetLink s).builder = (clearPort s).builder ∧ (resetLink s).classifier = (clearPort s).classifier := by
  obtain ⟨_, hleaves⟩ := loseLink_leaves .portReset (clearPort s)
  unfold resetLink
  split
  · exact hleaves
  · exact ⟨rfl, rfl, rfl, rfl, rfl, rfl⟩

theorem resetLink_of_not_serving {s : State} (h : s.controller.standIn.serving = false) :
    (resetLink s).controller = s.controller ∧ (resetLink s).wake = s.wake
      ∧ (resetLink s).host = if s.port.linkUp then afterLink s false .portReset else s.host := by
  obtain ⟨hcontroller, hwake, hhost, htime⟩ := clearPort_leaves s
  cases hlink : s.port.linkUp
  · rw [resetLink_of_down hlink]
    exact ⟨hcontroller, hwake, hhost⟩
  · rw [resetLink_of_up hlink, loseLink_of_not_serving (by rw [hcontroller]; exact h)]
    exact ⟨hcontroller, hwake, afterLink_congr hhost htime _ _⟩

theorem loseLink_serving {s : State} (h : s.controller.standIn.serving = true) (record : LinkRecord) :
    (loseLink record s).controller.standIn.serving = true := by
  rw [loseLink_eq]
  split
  · exact endArming_serving _ _
  · exact reportCause_serving _ _ h

/-- A return is not begun by a PORT_RESET. -/
theorem resetLink_not_returning {s : State} (h : s.controller.standIn ≠ .returning) :
    (resetLink s).controller.standIn ≠ .returning := by
  obtain ⟨hcontroller, _⟩ := clearPort_leaves s
  cases hserving : s.controller.standIn.serving
  · rw [(resetLink_of_not_serving hserving).1]
    exact h
  · refine serving_not_returning ?_
    unfold resetLink
    split
    · exact loseLink_serving (by rw [hcontroller]; exact hserving) _
    · rw [hcontroller]
      exact hserving

theorem drainComplete_resetLink {s : State} (hst : s.controller.standIn = .returning) :
    drainComplete (sendRecord (.ready 6) (resetLink s)) = true ↔
      s.hold.queue = [] ∧ s.classifier.current = none := by
  obtain ⟨hcontroller, _⟩ := resetLink_of_not_serving (s := s) (by rw [hst]; rfl)
  obtain ⟨_, _, hhold, _, _, hclassifier⟩ := resetLink_leaves s
  rw [drainComplete_iff]
  simp only [sendRecord, hcontroller, hhold, hclassifier, resetLink_port, hst, clearPort_eq, List.map_eq_nil_iff, true_and]

/-- A PORT_RESET that ends no return. -/
theorem exec_portReset_goes_on {s : State}
    (h : s.controller.standIn ≠ .returning ∨ s.hold.queue ≠ [] ∨ s.classifier.current ≠ none) :
    checkDrained (sendRecord (.ready 6) (resetLink s)) = sendRecord (.ready 6) (resetLink s) := by
  refine checkDrained_of_not_drained ?_
  by_cases hst : s.controller.standIn = .returning
  · rw [ne_eq, drainComplete_resetLink hst]
    rintro ⟨hqueue, hcurrent⟩
    simp [hst, hqueue, hcurrent] at h
  · exact not_drainComplete_of_not_returning (resetLink_not_returning hst)

/-- Settles O49: the port cleared, the link lost where it was UP, and the end of a return. -/
theorem portResetEmptiesPort : Obligations.PortResetEmptiesPort := by
  intro s
  obtain ⟨hresponder, hkeeper, hhold, hcounters, hbuilder, hclassifier⟩ := resetLink_leaves s
  obtain ⟨_, hresponder', hclassifier', hbuilder', hkeeper', hhold', hwake', hport', hcounters', _⟩ :=
    checkDrained_keeps (sendRecord (.ready 6) (resetLink s))
  obtain ⟨hclearedController, hclearedWake, hclearedHost, hclearedTime⟩ := clearPort_leaves s
  have hgoes := exec_portReset_goes_on (s := s)
  have hstanding : s.port.linkUp = true → resetLink s = loseLink .portReset (clearPort s) := resetLink_of_up
  refine ⟨_, exec_portReset s, ?_, ?_, ?_, ?_, ?_, ?_, ?_, fun hlink hst => ?_, fun hlink hst => ?_,
    fun hst hleft => ?_, fun hst hqueue hcurrent => ?_, fun hlink hst => ?_, fun tag hlink hst hflight => ?_⟩
  · rw [hport', sendRecord, resetLink_port]
  · exact hhold'.trans (hhold.trans (by rw [clearPort_eq]))
  · exact hcounters'.trans (hcounters.trans (by rw [clearPort_eq]))
  · exact hresponder'.trans (hresponder.trans (by rw [clearPort_eq]))
  · exact hkeeper'.trans (hkeeper.trans (by rw [clearPort_eq]))
  · exact hbuilder'.trans (hbuilder.trans (by rw [clearPort_eq]))
  · exact hclassifier'.trans (hclassifier.trans (by rw [clearPort_eq]))
  · rw [hgoes (.inl hst), resetLink_of_down hlink]
    exact ⟨hclearedController, hclearedHost, hclearedWake⟩
  · obtain ⟨hcontroller, hwake, hhost⟩ := resetLink_of_not_serving (s := s) (by rw [hst]; rfl)
    rw [hgoes (.inl (by simp [hst]))]
    exact ⟨hcontroller, hhost.trans (if_pos hlink), hwake⟩
  · obtain ⟨hcontroller, hwake, hhost⟩ := resetLink_of_not_serving (s := s) (by rw [hst]; rfl)
    rw [hgoes (.inr hleft)]
    exact ⟨hcontroller, hwake, hhost⟩
  · obtain ⟨hcontroller, hwake, _⟩ := resetLink_of_not_serving (s := s) (by rw [hst]; rfl)
    refine ⟨?_, hwake'.trans hwake⟩
    rw [checkDrained_of_drained ((drainComplete_resetLink hst).mpr ⟨hqueue, hcurrent⟩)]
    exact congrArg (fun c : Controller => { c with standIn := .attended, divert := false, drain := false }) hcontroller
  · have hst' : (clearPort s).controller.standIn = .standing ∨ (clearPort s).controller.standIn = .calling := by
      rw [hclearedController]
      exact hst
    have hnot : s.controller.standIn ≠ .returning := by rcases hst with hst | hst <;> simp [hst]
    rw [hgoes (.inl hnot), resetLink_of_up hlink, loseLink_of_standing hst']
    refine ⟨?_, fun hdisabled => ?_⟩
    · refine (reportCause_noted linkReport (linkTurned false .portReset (clearPort s)) ?_).trans ?_
      · rw [linkTurned, hclearedController]
        rcases hst with hst | hst <;> rw [hst] <;> rfl
      · rw [linkTurned, hclearedWake]
        rfl
    · obtain ⟨hcontroller, hhost⟩ := reportCause_of_disabled (r := linkReport) (s := linkTurned false .portReset (clearPort s))
        (by rw [linkTurned, hclearedWake]; exact hdisabled)
      exact ⟨hcontroller.trans hclearedController, hhost.trans (afterLink_congr hclearedHost hclearedTime _ _)⟩
  · rw [hgoes (.inl (by simp [hst])), resetLink_of_up hlink]
    obtain ⟨hnoted, hstate, hnone, hreply⟩ := loseLink_of_arming (s := clearPort s) (by rw [hclearedController]; exact hst)
      .portReset (tag := tag) (by rw [hclearedHost]; exact hflight)
    refine ⟨hnoted.trans (by rw [hclearedWake]), hstate, hnone, hreply.trans ?_⟩
    rw [clearPort_eq]

end Sys2Proof.Proofs
end

section
/-! PROOFS. HAND OVER (O42). -/

namespace Sys2Proof.Proofs

open Sys2Proof Sys2Proof.Machine

/-! The reports of a hand-over. -/

/-- Causes have been recorded, and the rest of the record, the policy and the calling sequence stand. -/
def Recorded (v w : WakeUnit) : Prop :=
  (w.record.depth = v.record.depth ∧ w.record.attempts = v.record.attempts ∧ w.record.outcome = v.record.outcome)
    ∧ w.policy = v.policy ∧ w.phase = v.phase ∧ w.wakereq = v.wakereq

theorem Recorded.refl (v : WakeUnit) : Recorded v v := ⟨⟨rfl, rfl, rfl⟩, rfl, rfl, rfl⟩

theorem Recorded.trans {u v w : WakeUnit} (h : Recorded u v) (h' : Recorded v w) : Recorded u w := by
  obtain ⟨⟨hdepth, hattempts, houtcome⟩, hpolicy, hphase, hwakereq⟩ := h
  obtain ⟨⟨hdepth', hattempts', houtcome'⟩, hpolicy', hphase', hwakereq'⟩ := h'
  exact ⟨⟨hdepth'.trans hdepth, hattempts'.trans hattempts, houtcome'.trans houtcome⟩, hpolicy'.trans hpolicy,
    hphase'.trans hphase, hwakereq'.trans hwakereq⟩

theorem recorded_recordCause (r : Report) (now : Time) (w : WakeUnit) : Recorded w (recordCause r now w) := by
  refine ⟨?_, ?_⟩
  · rw [recordCause_record_eq]
    exact ⟨rfl, rfl, rfl⟩
  · rw [recordCause_eq]
    exact ⟨rfl, rfl, rfl⟩

/-- Reports made in ARMING are recorded and no more. -/
theorem reportAll_of_arming {rs : List Report} {s : State} (hst : s.controller.standIn = .arming) :
    ∃ w, reportAll rs s = { s with wake := w } ∧ Recorded s.wake w := by
  induction rs generalizing s with
  | nil => exact ⟨s.wake, rfl, .refl _⟩
  | cons r rs ih =>
    have hone : reportCause r s = { s with wake := recordCause r s.time s.wake } := by
      rw [reportCause_of_serving (by rw [hst]; rfl), if_neg (by simp [hst])]
    obtain ⟨w, hw, hrecorded⟩ := ih (s := { s with wake := recordCause r s.time s.wake }) hst
    refine ⟨w, ?_, (recorded_recordCause r s.time s.wake).trans hrecorded⟩
    rw [reportAll, List.foldl_cons, hone]
    exact hw

theorem has_join_iff (e : CauseSet) (c d : Cause) : (e.join c).has d = true ↔ e.has d = true ∨ d = c := by
  refine ⟨fun h => ?_, ?_⟩
  · by_cases hd : d = c
    · exact .inr hd
    · refine .inl ?_
      simp only [CauseSet.has, CauseSet.join, BitVec.getLsbD_or, Bool.or_eq_true] at h ⊢
      refine h.resolve_right fun hbit => hd ?_
      revert hbit
      cases c <;> cases d <;> simp [Cause.priority]
  · rintro (h | rfl)
    · exact has_of_has_join e c d h
    · exact join_has e d

/-- The causes noted by reports made in a stand-in. -/
theorem reportAll_noted {rs : List Report} {s : State} (hs : s.controller.standIn.serving = true) (c : Cause) :
    (reportAll rs s).wake.record.noted.has c = true ↔
      s.wake.record.noted.has c = true ∨ ∃ r ∈ rs, r.cause = c := by
  induction rs generalizing s with
  | nil => simp [reportAll]
  | cons r rs ih =>
    rw [reportAll, List.foldl_cons]
    refine (ih (reportCause_serving r s hs)).trans ?_
    rw [reportCause_noted r s hs, has_join_iff]
    simp only [List.mem_cons, exists_eq_or_imp]
    rw [or_assoc, eq_comm (a := c)]

theorem mem_mergeReports {fuel : Nat} {xs ys : List Report} {n : Nat} {r : Report} :
    r ∈ (mergeReports fuel xs ys n).1 ↔ r ∈ xs ∨ r ∈ ys := by
  induction fuel generalizing xs ys n with
  | zero => exact List.mem_append
  | succ fuel ih =>
    cases xs with
    | nil => simp [mergeReports]
    | cons x xs =>
      cases ys with
      | nil => simp [mergeReports]
      | cons y ys =>
        rw [mergeReports]
        split
        · simp only [List.mem_cons, ih, or_assoc]
        · simp only [List.mem_cons, ih]
          tauto

/-- The reports of two blocks, made in ARMING. -/
theorem reportTwo_of_arming {xs ys : List Report} {s : State} (hst : s.controller.standIn = .arming) :
    Recorded s.wake (reportTwo xs ys s).wake
      ∧ ∀ c, (reportTwo xs ys s).wake.record.noted.has c = true ↔
          s.wake.record.noted.has c = true ∨ (∃ r ∈ xs, r.cause = c) ∨ ∃ r ∈ ys, r.cause = c := by
  refine ⟨?_, fun c => ?_⟩
  · obtain ⟨w, hw, hrecorded⟩ := reportAll_of_arming (rs := (mergeReports (xs.length + ys.length) xs ys s.freeCount).1)
      (s := { s with freeCount := (mergeReports (xs.length + ys.length) xs ys s.freeCount).2 }) hst
    rw [reportTwo, hw]
    exact hrecorded
  · refine (reportAll_noted (s := { s with freeCount := (mergeReports (xs.length + ys.length) xs ys s.freeCount).2 })
      (show s.controller.standIn.serving = true by rw [hst]; rfl) c).trans ?_
    simp only [mem_mergeReports, or_and_right, exists_or]

/-- Which causes a hand-over itself notes. -/
theorem leaseReports_cause {entries : List (Option IdentityEntry)} {c : Cause} :
    (∃ r ∈ leaseReports entries, r.cause = c) ↔ c = .lease ∧ ∃ i e, lookup entries i = some e ∧ e.leaseMark = true := by
  refine ⟨?_, ?_⟩
  · rintro ⟨r, hr, rfl⟩
    obtain ⟨p, hp, rfl⟩ := List.mem_map.mp hr
    obtain ⟨hp, hmark⟩ := List.mem_filter.mp hp
    exact ⟨rfl, p.1, p.2, lookup_of_mem_occupied hp, hmark⟩
  · rintro ⟨rfl, i, e, he, hmark⟩
    exact ⟨_, List.mem_map.mpr ⟨(i, e), List.mem_filter.mpr ⟨mem_occupied he, hmark⟩, rfl⟩, rfl⟩

theorem startLossReports_cause {sessions : List (Option Session)} {c : Cause} :
    (∃ r ∈ startLossReports sessions, r.cause = c) ↔
      c = .sessionLost ∧ ∃ j x, lookup sessions j = some x ∧ x.state = .lost := by
  refine ⟨?_, ?_⟩
  · rintro ⟨r, hr, rfl⟩
    obtain ⟨p, hp, rfl⟩ := List.mem_map.mp hr
    obtain ⟨hp, hlost⟩ := List.mem_filter.mp hp
    exact ⟨rfl, p.1, p.2, lookup_of_mem_occupied hp, by simpa using hlost⟩
  · rintro ⟨rfl, j, x, hx, hlost⟩
    exact ⟨_, List.mem_map.mpr ⟨(j, x), List.mem_filter.mpr ⟨mem_occupied hx, by simp [hlost]⟩, rfl⟩, rfl⟩

theorem leaseReports_eq_nil {entries : List (Option IdentityEntry)}
    (h : ¬ ∃ i e, lookup entries i = some e ∧ e.leaseMark = true) : leaseReports entries = [] :=
  List.eq_nil_iff_forall_not_mem.mpr fun r hr => h (leaseReports_cause.mp ⟨r, hr, rfl⟩).2

theorem startLossReports_eq_nil {sessions : List (Option Session)}
    (h : ¬ ∃ j x, lookup sessions j = some x ∧ x.state = .lost) : startLossReports sessions = [] :=
  List.eq_nil_iff_forall_not_mem.mpr fun r hr => h (startLossReports_cause.mp ⟨r, hr, rfl⟩).2

/-! The rounds due at the taking. -/

theorem lookup_modifyAt {α : Type} (l : List (Option α)) (i : Nat) (f : α → α) (j : Nat) :
    lookup (modifyAt l i f) j = if i = j then (lookup l j).map f else lookup l j := by
  unfold lookup modifyAt
  simp only [List.getD_eq_getElem?_getD, List.getElem?_modify]
  by_cases h : i = j
  · simp only [h, if_true]
    cases l[j]? <;> rfl
  · simp only [h, if_false]
    cases l[j]? <;> rfl

/-- A session whose round has just begun: its probe is pending or queued. -/
def RoundBegun (x z : Session) : Prop :=
  (z.phase = .pending ∨ z.phase = .queued)
    ∧ z =
        { x with
          state := .probing, nextDue := none, outstanding := 1, deadline := none, phase := z.phase
          probeId := z.probeId }

/-- An offer of a probe reaches no other session. -/
theorem offerProbe_of_ne {i j : Nat} (hne : i ≠ j) (s : State) :
    lookup (offerProbe i s).keeper.sessions j = lookup s.keeper.sessions j := by
  unfold offerProbe
  split
  · rfl
  · split
    · dsimp only
      split
      · simp only [offerTx_keeps, lookup_modifyAt, if_neg hne]
      · simp
    · rfl

theorem beginRound_of_ne {i j : Nat} (hne : i ≠ j) (s : State) :
    lookup (beginRound i s).keeper.sessions j = lookup s.keeper.sessions j := by
  rw [beginRound, offerProbe_of_ne hne]
  simp only [modifySession, lookup_modifyAt, if_neg hne]

theorem beginRound_self {i : Nat} {s : State} {x : Session} (hx : lookup s.keeper.sessions i = some x) :
    ∃ z, lookup (beginRound i s).keeper.sessions i = some z ∧ RoundBegun x z := by
  let begun : Session := { x with state := .probing, nextDue := none, outstanding := 1, deadline := none, phase := .pending }
  let u := modifySession i
    (fun x => { x with state := .probing, nextDue := none, outstanding := 1, deadline := none, phase := .pending }) s
  have hbegun : lookup u.keeper.sessions i = some begun := by
    simp only [u, modifySession, lookup_modifyAt, if_true, hx]
    rfl
  obtain ⟨z, hz, hcases⟩ := ProbesQueued.lookup_cases (offerProbe_sessions i u) hbegun
  refine ⟨z, hz, ?_⟩
  rcases hcases with rfl | ⟨_, _, hqueued⟩
  · exact ⟨.inl rfl, rfl⟩
  · rw [hqueued]
    exact ⟨.inr rfl, rfl⟩

theorem beginRounds_of_not_mem {l : List Nat} {j : Nat} (h : j ∉ l) (s : State) :
    lookup (l.foldl (fun s i => beginRound i s) s).keeper.sessions j = lookup s.keeper.sessions j := by
  induction l generalizing s with
  | nil => rfl
  | cons i l ih =>
    obtain ⟨hne, hrest⟩ := not_or.mp (List.mem_cons.not.mp h)
    rw [List.foldl_cons, ih hrest, beginRound_of_ne (Ne.symm hne)]

theorem beginRounds_of_mem {l : List Nat} (hnodup : l.Nodup) {j : Nat} (h : j ∈ l) {s : State} {x : Session}
    (hx : lookup s.keeper.sessions j = some x) :
    ∃ z, lookup (l.foldl (fun s i => beginRound i s) s).keeper.sessions j = some z ∧ RoundBegun x z := by
  induction l generalizing s with
  | nil => exact absurd h List.not_mem_nil
  | cons i l ih =>
    obtain ⟨hnot, hrest⟩ := List.nodup_cons.mp hnodup
    rw [List.foldl_cons]
    by_cases hij : i = j
    · subst hij
      obtain ⟨z, hz, hbegun⟩ := beginRound_self hx
      exact ⟨z, by rw [beginRounds_of_not_mem hnot, hz], hbegun⟩
    · exact ih hrest ((List.mem_cons.mp h).resolve_left (Ne.symm hij)) (by rw [beginRound_of_ne hij, hx])

theorem dueSessions_nodup (s : State) : (dueSessions s).Nodup :=
  List.Sublist.nodup (List.Sublist.map _ List.filter_sublist) (occupied_nodup s.keeper.sessions)

theorem mem_dueSessions {s : State} {j : Nat} :
    j ∈ dueSessions s ↔ ∃ x, lookup s.keeper.sessions j = some x ∧ x.dueReached s.time = true := by
  simp only [dueSessions, List.mem_map, List.mem_filter]
  refine ⟨?_, ?_⟩
  · rintro ⟨p, ⟨hp, hdue⟩, rfl⟩
    exact ⟨p.2, lookup_of_mem_occupied hp, hdue⟩
  · rintro ⟨x, hx, hdue⟩
    exact ⟨(j, x), ⟨mem_occupied hx, hdue⟩, rfl⟩

/-- A session after the rounds due have begun. -/
theorem beginDueRounds_lookup {s : State} {j : Nat} {x : Session} (hx : lookup s.keeper.sessions j = some x) :
    (x.dueReached s.time = false → lookup (beginDueRounds s).keeper.sessions j = some x)
      ∧ (x.dueReached s.time = true →
          ∃ z, lookup (beginDueRounds s).keeper.sessions j = some z ∧ RoundBegun x z) := by
  refine ⟨fun hidle => ?_, fun hdue => beginRounds_of_mem (dueSessions_nodup s) (mem_dueSessions.mpr ⟨x, hx, hdue⟩) hx⟩
  refine (beginRounds_of_not_mem (fun hmem => ?_) s).trans hx
  obtain ⟨y, hy, hdue⟩ := mem_dueSessions.mp hmem
  obtain rfl := Option.some.inj (hx.symm.trans hy)
  simp [hidle] at hdue

/-- What the rounds do at the transmit queue. -/
theorem placed_beginRound (i : Nat) (s : State) (hs : s.controller.standIn.serving = true) :
    Placed keeperKinds s (beginRound i s) := placed_offerProbe i (modifySession i _ s) hs

theorem placed_beginDueRounds (s : State) (hs : s.controller.standIn.serving = true) :
    Placed keeperKinds s (beginDueRounds s) := Placed.foldl _ (fun s i h => placed_beginRound i s h) _ s hs

theorem beginRound_joined (i : Nat) (s : State) : ProbesJoined s (beginRound i s) := offerProbe_joined i (modifySession i _ s)

theorem beginDueRounds_joined (s : State) : ProbesJoined s (beginDueRounds s) :=
  foldl_pres (ProbesJoined s) (fun u i => beginRound i u) (fun u i h => h.trans (beginRound_joined i u)) _ s
    (.of_port rfl)

theorem beginRound_port_of_down {i : Nat} {s : State} (hlink : s.port.linkUp = false) : (beginRound i s).port = s.port := by
  unfold beginRound offerProbe
  split
  · rfl
  · rw [if_neg (fun h => by simp [modifySession, hlink] at h)]
    rfl

theorem beginDueRounds_port_of_down {s : State} (hlink : s.port.linkUp = false) : (beginDueRounds s).port = s.port :=
  foldl_pres (fun u => u.port = s.port) (fun u i => beginRound i u)
    (fun u _ h => (beginRound_port_of_down (by rw [h]; exact hlink)).trans h) _ s rfl

/-- No probe is pending, or the transmit queue is full. -/
def ProbesRoomless (s : State) : Prop := (∀ j, j ∉ pendingProbes s) ∨ 8 ≤ s.port.txQueue.length

theorem beginRound_roomless {i : Nat} {s : State} (hs : s.controller.standIn.serving = true) (hlink : s.port.linkUp = true)
    (h : ProbesRoomless s) : ProbesRoomless (beginRound i s) := by
  by_cases hroom : s.port.txQueue.length < 8
  · refine .inl fun j hj => ?_
    by_cases hij : i = j
    · subst hij
      exact offerProbe_pending i (modifySession i _ s) hs hlink hroom hj
    · rw [mem_pendingProbes, beginRound_of_ne hij, ← mem_pendingProbes] at hj
      rcases h with h | h
      · exact h j hj
      · omega
  · exact .inr (Nat.le_trans (Nat.le_of_not_lt hroom) (placed_beginRound i s hs).length_le)

theorem beginRounds_roomless {l : List Nat} {s : State} (hs : s.controller.standIn.serving = true)
    (hlink : s.port.linkUp = true) (h : ProbesRoomless s) :
    ProbesRoomless (l.foldl (fun s i => beginRound i s) s) := by
  induction l generalizing s with
  | nil => exact h
  | cons i l ih =>
    obtain ⟨_, _, new, hport, _⟩ := placed_beginRound i s hs
    exact ih (by simpa using hs) (by rw [hport]; exact hlink) (beginRound_roomless hs hlink h)

/-! What the tables start from. -/

theorem handOver_entry (e : IdentityEntry) (now : Time) (margin : Nat) :
    e.handOver now margin =
      { e with
        state :=
          if e.isAddress ∧ (e.state = .expired ∨ e.deadlinePassed now = true) then .expired else .active
        conflicts := 0, lastDefence := none, answers := 0, report := none, budget := 0, defence := false
        leaseMark := e.marginReached now margin } := by
  unfold IdentityEntry.handOver
  by_cases hexpired : e.isAddress = true ∧ (e.state = .expired ∨ e.deadlinePassed now = true)
  · have hbool : (e.isAddress && (e.state == .expired || e.deadlinePassed now)) = true := by simpa using hexpired
    rw [if_pos hexpired, hbool]
    rfl
  · have hbool : (e.isAddress && (e.state == .expired || e.deadlinePassed now)) = false := by
      rw [← Bool.not_eq_true]
      simpa using hexpired
    rw [if_neg hexpired, hbool]
    rfl

/-- The session's local entry is EXPIRED in a table. -/
def OnExpired (entries : List (Option IdentityEntry)) (x : Session) : Prop :=
  ∃ e, lookup entries x.localIndex = some e ∧ e.state = .expired

theorem handOver_of_expired {entries : List (Option IdentityEntry)} {x : Session} (h : OnExpired entries x) (now : Time) :
    x.handOver entries now = { x.start now with state := .lost, nextDue := none } := by
  obtain ⟨e, he, hexpired⟩ := h
  rw [Session.handOver, he]
  exact if_pos hexpired

theorem handOver_of_not_expired {entries : List (Option IdentityEntry)} {x : Session} (h : ¬ OnExpired entries x)
    (now : Time) : x.handOver entries now = x.start now := by
  unfold Session.handOver
  split
  · rename_i e he
    exact if_neg fun hexpired => h ⟨e, he, hexpired⟩
  · rfl

theorem handOver_lost_iff (entries : List (Option IdentityEntry)) (x : Session) (now : Time) :
    (x.handOver entries now).state = .lost ↔ OnExpired entries x := by
  by_cases h : OnExpired entries x
  · simp [handOver_of_expired h, h]
  · simp [handOver_of_not_expired h, h, Session.start]

/-- A session started is due where it has been idle for its interval (R96, R97). -/
theorem start_dueReached {x : Session} (hidle : x.idleAge ≤ x.interval) (hbound : x.interval ≤ 7200) (now : Time) :
    (x.start now).dueReached now = decide (x.idleAge = x.interval) := by
  have helapsed : elapsed now (now - BitVec.ofNat 32 (x.idleAge * 1000)) = x.idleAge * 1000 := by
    rw [elapsed, sub_sub_cancel, BitVec.toNat_ofNat, Nat.mod_eq_of_lt (by omega)]
  have hdue : (x.interval * 1000 ≤ x.idleAge * 1000) ↔ x.idleAge = x.interval := by omega
  simp [Session.dueReached, Session.start, helapsed, hdue]

theorem lost_dueReached {x : Session} (h : x.state = .lost) (now : Time) : x.dueReached now = false := by
  unfold Session.dueReached
  split
  · simp [h]
  · rfl

/-! The list offered and the rounds begun, from any state of a stand-in. -/

theorem offerListNow_of_up {s : State} (hlink : s.port.linkUp = true) :
    offerListNow s = offerList s.responder.list s := if_pos hlink

theorem offerListNow_of_down {s : State} (hlink : s.port.linkUp = false) : offerListNow s = s :=
  if_neg (by simp [hlink])

theorem listAndRounds_listed {s : State} (hlink : s.port.linkUp = true)
    (hlist : s.responder.list = announcementList s.responder.entries) :
    ListJoined s.responder.list s (beginDueRounds (offerListNow s)) := by
  rw [offerListNow_of_up hlink]
  refine (offerList_joined fun i hi => ?_).probes_after (beginDueRounds_joined _) (beginDueRounds_keeps _).2.2.1
  rw [hlist] at hi
  exact lookup_isSome_of_announced hi

theorem listAndRounds_room {s : State} (hserving : s.controller.standIn.serving = true) (hlink : s.port.linkUp = true)
    (hidle : ∀ j, j ∉ pendingProbes s) :
    8 ≤ (beginDueRounds (offerListNow s)).port.txQueue.length
      ∨ ((beginDueRounds (offerListNow s)).responder.list = []
        ∧ pendingProbes (beginDueRounds (offerListNow s)) = []) := by
  have hplaced := placed_offerList s.responder.list s
  have hidle' : ∀ j, j ∉ pendingProbes (offerList s.responder.list s) := fun j hj => by
    rw [mem_pendingProbes, show (offerList s.responder.list s).keeper = s.keeper by simp, ← mem_pendingProbes] at hj
    exact hidle j hj
  obtain ⟨_, _, _, hport, _⟩ := id hplaced
  have hup : (offerList s.responder.list s).port.linkUp = true := by rw [hport]; exact hlink
  have hserving' := hplaced.serving hserving
  rw [offerListNow_of_up hlink]
  rcases offerList_room s.responder.list s hserving with hempty | hfull
  · rcases beginRounds_roomless (l := dueSessions (offerList s.responder.list s)) hserving' hup (.inl hidle') with
      hnone | hfull
    · refine .inr ⟨?_, List.eq_nil_iff_forall_not_mem.mpr hnone⟩
      rw [(beginDueRounds_keeps _).2.2.1]
      exact hempty
    · exact .inl hfull
  · exact .inl (Nat.le_trans hfull (placed_beginDueRounds _ hserving').length_le)

theorem listAndRounds_down {s : State} (hlink : s.port.linkUp = false) :
    (beginDueRounds (offerListNow s)).port = s.port ∧ (beginDueRounds (offerListNow s)).responder = s.responder := by
  rw [offerListNow_of_down hlink]
  exact ⟨beginDueRounds_port_of_down hlink, (beginDueRounds_keeps s).2.2.1⟩

/-! The device when the hand-over's reports are made, its list offered and its rounds begun. -/

/-- The blocks started, with the hand-over's own reports made. -/
def reportedStart (depth : Depth) (tag : Byte) (s : State) : State :=
  reportTwo (leaseReports (startBlocks depth tag s).responder.entries)
    (startLossReports (startBlocks depth tag s).keeper.sessions) (startBlocks depth tag s)

section
variable (depth : Depth) (tag : Byte) (s : State)

theorem startedStandIn_eq : startedStandIn depth tag s = beginDueRounds (offerListNow (reportedStart depth tag s)) := rfl

theorem startBlocks_standIn : (startBlocks depth tag s).controller.standIn = .arming := rfl

theorem reportedStart_controller : (reportedStart depth tag s).controller = (startBlocks depth tag s).controller :=
  reportTwo_controller _ _ (show StandIn.arming ≠ .standing by decide)

theorem reportedStart_serving : (reportedStart depth tag s).controller.standIn.serving = true := by
  rw [reportedStart_controller]
  rfl

theorem reportedStart_leaves :
    (reportedStart depth tag s).responder = (startBlocks depth tag s).responder
      ∧ (reportedStart depth tag s).keeper = (startBlocks depth tag s).keeper
      ∧ (reportedStart depth tag s).port = s.port ∧ (reportedStart depth tag s).time = s.time
      ∧ (reportedStart depth tag s).counters = s.counters ∧ (reportedStart depth tag s).hold = s.hold
      ∧ (reportedStart depth tag s).builder = s.builder
      ∧ (reportedStart depth tag s).classifier = (startBlocks depth tag s).classifier := by
  simp [reportedStart]

/-- The entries and the sessions that the stand-in starts from. -/
theorem startBlocks_tables :
    (startBlocks depth tag s).responder.entries =
        mapTable s.responder.entries (fun e => e.handOver s.time s.wake.policy.leaseMargin)
      ∧ (startBlocks depth tag s).keeper.sessions =
        mapTable s.keeper.sessions
          (fun x => x.handOver (startBlocks depth tag s).responder.entries s.time) := by
  refine ⟨rfl, ?_⟩
  unfold startBlocks
  simp

/-- The wake unit of the stand-in started. -/
theorem startBlocks_wake : (startBlocks depth tag s).wake = clearWake depth s.wake := by
  unfold startBlocks
  simp

theorem startedStandIn_wake : (startedStandIn depth tag s).wake = (reportedStart depth tag s).wake := by
  simp [startedStandIn_eq]

theorem startedStandIn_recorded : Recorded (clearWake depth s.wake) (startedStandIn depth tag s).wake := by
  rw [startedStandIn_wake, ← startBlocks_wake depth tag s]
  exact (reportTwo_of_arming (startBlocks_standIn depth tag s)).1

/-- The causes of the hand-over itself (R7, R41). -/
theorem startedStandIn_noted (c : Cause) :
    (startedStandIn depth tag s).wake.record.noted.has c = true ↔
      (c = .lease ∧ ∃ i e, lookup (startBlocks depth tag s).responder.entries i = some e ∧ e.leaseMark = true)
        ∨ (c = .sessionLost ∧ ∃ j x, lookup (startBlocks depth tag s).keeper.sessions j = some x ∧ x.state = .lost) := by
  rw [startedStandIn_wake]
  refine ((reportTwo_of_arming (startBlocks_standIn depth tag s)).2 c).trans ?_
  rw [leaseReports_cause, startLossReports_cause, startBlocks_wake]
  have hnone : (clearWake depth s.wake).record.noted.has c = false := BitVec.getLsbD_zero
  simp [hnone]

theorem startedStandIn_wake_of_none
    (hleases : ¬ ∃ i e, lookup (startBlocks depth tag s).responder.entries i = some e ∧ e.leaseMark = true)
    (hlosses : ¬ ∃ j x, lookup (startBlocks depth tag s).keeper.sessions j = some x ∧ x.state = .lost) :
    (startedStandIn depth tag s).wake = clearWake depth s.wake := by
  rw [startedStandIn_wake, reportedStart, leaseReports_eq_nil hleases, startLossReports_eq_nil hlosses,
    ← startBlocks_wake depth tag s]
  rfl

/-- The list's offers and the rounds keep the counters and, of the port, the receive buffer and the link. -/
theorem startedStandIn_placed :
    (startedStandIn depth tag s).counters = s.counters
      ∧ (startedStandIn depth tag s).port.linkUp = s.port.linkUp
      ∧ (startedStandIn depth tag s).port.rxBuffer = s.port.rxBuffer := by
  obtain ⟨_, _, hport, _, hcounters, _⟩ := reportedStart_leaves depth tag s
  have hlisted : Placed responderKinds (reportedStart depth tag s) (offerListNow (reportedStart depth tag s)) := by
    unfold offerListNow
    split
    · exact placed_offerList _ _
    · exact Placed.refl _ _
  obtain ⟨_, hcounters', _, hport', _⟩ := id hlisted
  obtain ⟨_, hcounters'', _, hport'', _⟩ := placed_beginDueRounds (offerListNow (reportedStart depth tag s))
    (hlisted.serving (reportedStart_serving depth tag s))
  rw [startedStandIn_eq, hcounters'', hport'', hcounters', hport', hport, hcounters]
  exact ⟨rfl, rfl, rfl⟩

theorem startedStandIn_leaves :
    (startedStandIn depth tag s).time = s.time ∧ (startedStandIn depth tag s).hold = s.hold
      ∧ (startedStandIn depth tag s).builder = s.builder
      ∧ (startedStandIn depth tag s).classifier = (startBlocks depth tag s).classifier := by
  obtain ⟨_, _, _, htime, _, hhold, hbuilder, hclassifier⟩ := reportedStart_leaves depth tag s
  simp [startedStandIn_eq, htime, hhold, hbuilder, hclassifier]

/-- A session of the stand-in started. -/
theorem startedStandIn_session {j : Nat} {x : Session} (hx : lookup s.keeper.sessions j = some x)
    (hidle : x.idleAge ≤ x.interval) (hbound : x.interval ≤ 7200) :
    (OnExpired (startBlocks depth tag s).responder.entries x →
        lookup (startedStandIn depth tag s).keeper.sessions j =
          some { x.start s.time with state := .lost, nextDue := none })
      ∧ (¬ OnExpired (startBlocks depth tag s).responder.entries x → x.idleAge < x.interval →
        lookup (startedStandIn depth tag s).keeper.sessions j = some (x.start s.time))
      ∧ (¬ OnExpired (startBlocks depth tag s).responder.entries x → x.idleAge = x.interval →
        ∃ z, lookup (startedStandIn depth tag s).keeper.sessions j = some z ∧ RoundBegun (x.start s.time) z) := by
  obtain ⟨_, hkeeper, _, htime, _⟩ := reportedStart_leaves depth tag s
  have hstarted : lookup (offerListNow (reportedStart depth tag s)).keeper.sessions j =
      some (x.handOver (startBlocks depth tag s).responder.entries s.time) := by
    rw [(offerListNow_keeps _).2.2.2.2.1, hkeeper, (startBlocks_tables depth tag s).2, lookup_mapTable, hx]
    rfl
  have htimed : (offerListNow (reportedStart depth tag s)).time = s.time := (offerListNow_keeps _).1.trans htime
  rw [startedStandIn_eq]
  generalize offerListNow (reportedStart depth tag s) = u at hstarted htimed ⊢
  generalize (startBlocks depth tag s).responder.entries = entries at hstarted ⊢
  obtain ⟨hstays, hbegins⟩ := beginDueRounds_lookup hstarted
  rw [htimed] at hstays hbegins
  refine ⟨fun hexpired => ?_, fun hlive hlt => ?_, fun hlive heq => ?_⟩
  · rw [hstays (lost_dueReached ((handOver_lost_iff _ _ _).mpr hexpired) _), handOver_of_expired hexpired]
  · rw [handOver_of_not_expired hlive] at hstays
    exact hstays (by rw [start_dueReached hidle hbound]; exact decide_eq_false (Nat.ne_of_lt hlt))
  · rw [handOver_of_not_expired hlive] at hbegins
    exact hbegins (by rw [start_dueReached hidle hbound]; exact decide_eq_true heq)

theorem startBlocks_build : (startBlocks depth tag s).responder.build = s.responder.build + 1 := by
  unfold startBlocks
  simp

theorem startBlocks_list :
    (startBlocks depth tag s).responder.list = announcementList (startBlocks depth tag s).responder.entries := rfl

/-- With the link UP the list's items are in the queue from the first on (R47). -/
theorem startedStandIn_listed (hlink : s.port.linkUp = true) :
    ListJoined (startBlocks depth tag s).responder.list (startBlocks depth tag s) (startedStandIn depth tag s) := by
  obtain ⟨hresponder, _, hport, _⟩ := reportedStart_leaves depth tag s
  obtain ⟨_, _, _, hport', _⟩ := startBlocks_keeps depth tag s
  have hlist := startBlocks_list depth tag s
  rw [startedStandIn_eq]
  generalize reportedStart depth tag s = u at hresponder hport ⊢
  generalize startBlocks depth tag s = v at hresponder hport' hlist ⊢
  obtain ⟨hjoined, new, hqueue, hitems⟩ := listAndRounds_listed (s := u) (by rw [hport]; exact hlink)
    (by rw [hresponder]; exact hlist)
  rw [hresponder] at hjoined hitems
  exact ⟨hjoined, new, by rw [hqueue, hport, hport'], hitems⟩

theorem pendingProbes_congr {s t : State} (h : t.keeper = s.keeper) : pendingProbes t = pendingProbes s := by
  unfold pendingProbes
  rw [h]

/-- No session of the stand-in started is PROBING before the rounds begin. -/
theorem startBlocks_idle (j : Nat) : j ∉ pendingProbes (startBlocks depth tag s) := by
  rw [mem_pendingProbes, (startBlocks_tables depth tag s).2, lookup_mapTable]
  rintro ⟨x, hx, hprobing, _⟩
  obtain ⟨y, _, rfl⟩ := Option.map_eq_some_iff.mp hx
  by_cases hexpired : OnExpired (startBlocks depth tag s).responder.entries y
  · simp [handOver_of_expired hexpired] at hprobing
  · simp [handOver_of_not_expired hexpired, Session.start] at hprobing

/-- With the link UP nothing waits while there is room in the queue (R47, R99). -/
theorem startedStandIn_room (hlink : s.port.linkUp = true) :
    8 ≤ (startedStandIn depth tag s).port.txQueue.length
      ∨ ((startedStandIn depth tag s).responder.list = [] ∧ pendingProbes (startedStandIn depth tag s) = []) := by
  obtain ⟨_, hkeeper, hport, _⟩ := reportedStart_leaves depth tag s
  have hidle : ∀ j, j ∉ pendingProbes (reportedStart depth tag s) := by
    rw [pendingProbes_congr hkeeper]
    exact startBlocks_idle depth tag s
  rw [startedStandIn_eq]
  exact listAndRounds_room (reportedStart_serving depth tag s) (by rw [hport]; exact hlink) hidle

/-- With the link DOWN nothing is offered. -/
theorem startedStandIn_down (hlink : s.port.linkUp = false) :
    (startedStandIn depth tag s).port = s.port
      ∧ (startedStandIn depth tag s).responder = (startBlocks depth tag s).responder := by
  obtain ⟨hresponder, _, hport, _⟩ := reportedStart_leaves depth tag s
  obtain ⟨hdown, hstands⟩ := listAndRounds_down (s := reportedStart depth tag s) (by rw [hport]; exact hlink)
  rw [startedStandIn_eq]
  exact ⟨hdown.trans hport, hstands.trans hresponder⟩

end

/-! The end of arming with the taking. -/

/-- What the end of arming leaves of the controller and the wake unit. -/
theorem endArming_leaves (linkDown : Bool) (s : State) :
    (endArming linkDown s).controller.depth = s.controller.depth ∧ (endArming linkDown s).controller.divert = true
      ∧ (endArming linkDown s).controller.drain = s.controller.drain
      ∧ (endArming linkDown s).wake.policy = s.wake.policy
      ∧ (endArming linkDown s).wake.record.depth = s.wake.record.depth
      ∧ (endArming linkDown s).wake.record.outcome = s.wake.record.outcome := by
  simp only [endArming, enterCalling, beginCalling, startAttempt, startClaim]
  (repeat' split) <;> simp [changeState_eq]

/-- With no cause enabled, arming ends in STANDING and the claim window with it. -/
theorem endArming_wake_of_none {s : State} (h : s.wake.record.enabled = 0) (linkDown : Bool) :
    (endArming linkDown s).wake = { s.wake with claim := none, phase := .none } := by
  have hwake : ∀ u : State, (changeState .standing .handedOver u).wake = u.wake := fun u => by rw [changeState_eq]
  have hreply : (replyInFlight (handOverReply linkDown s) s).wake = s.wake := by simp
  unfold endArming
  dsimp only
  rw [hwake, hreply, if_pos (by exact h)]

theorem unsettled_eq (s : State) :
    unsettled s = s.responder.list.length + (listItemsOf s.responder.build s.port.txQueue).length := by
  unfold unsettled listItemsOf
  congr 1
  induction s.port.txQueue with
  | nil => rfl
  | cons slot rest ih =>
    simp only [List.filter_cons, List.filterMap_cons]
    cases slot.owner with
    | listItem build entry =>
      by_cases hbuild : build = s.responder.build
      · simp [hbuild, ih]
      · simp [hbuild, ih]
    | probe i n => exact ih
    | untold => exact ih
    | defence entry => exact ih
    | dueReport entry => exact ih

/-- A list joined has as many items unsettled as it has items, besides those of its number in the queue before. -/
theorem ListJoined.unsettled {l : List Nat} {s t : State} (h : ListJoined l s t) :
    unsettled t = (listItemsOf s.responder.build s.port.txQueue).length + l.length := by
  obtain ⟨hresponder, new, hqueue, hitems⟩ := h
  rw [unsettled_eq, hqueue, show t.responder.build = s.responder.build by rw [hresponder], listItemsOf_append, ← hitems]
  simp only [List.length_append]
  omega

/-- No slot carries the number of a list not yet built. -/
theorem listItemsOf_next {s : State} (h : BuildsOk s) : listItemsOf (s.responder.build + 1) s.port.txQueue = [] := by
  refine List.filterMap_eq_nil_iff.mpr fun x hx => ?_
  cases howner : x.owner with
  | listItem build entry =>
    have := h x hx build entry howner
    exact if_neg (by omega)
  | probe i n => rfl
  | untold => rfl
  | defence entry => rfl
  | dueReport entry => rfl

section
variable (depth : Depth) (tag : Byte) (s : State)

theorem startStandIn_of_up (hlink : s.port.linkUp = true) :
    startStandIn depth tag s = checkArmingEnd (startedStandIn depth tag s) := by
  obtain ⟨_, hup, _⟩ := startedStandIn_placed depth tag s
  rw [startStandIn_eq, if_pos (by rw [hup]; exact hlink)]

theorem startStandIn_of_down (hlink : s.port.linkUp = false) :
    startStandIn depth tag s = endArming true (startedStandIn depth tag s) := by
  obtain ⟨_, hup, _⟩ := startedStandIn_placed depth tag s
  rw [startStandIn_eq, if_neg (by rw [hup, hlink]; simp)]

/-- Arming goes on after the taking, or it ends with it. -/
theorem startStandIn_cases : startStandIn depth tag s = startedStandIn depth tag s
    ∨ ∃ linkDown, startStandIn depth tag s = endArming linkDown (startedStandIn depth tag s) := by
  cases hlink : s.port.linkUp
  · exact .inr ⟨true, startStandIn_of_down depth tag s hlink⟩
  · rw [startStandIn_of_up depth tag s hlink]
    unfold checkArmingEnd
    split
    · exact .inr ⟨false, rfl⟩
    · exact .inl rfl

theorem startedStandIn_unsettled (hlink : s.port.linkUp = true) :
    unsettled (startedStandIn depth tag s) =
      (listItemsOf (s.responder.build + 1) s.port.txQueue).length
        + (announcementList (startBlocks depth tag s).responder.entries).length := by
  have hjoined := (startedStandIn_listed depth tag s hlink).unsettled
  rwa [(startBlocks_keeps depth tag s).2.2.2.1, startBlocks_build, startBlocks_list] at hjoined

end

/-! HAND OVER. -/

section
variable (depth : Depth) (tag : Byte) (s : State)

/-- What the end of arming at the taking leaves of the stand-in started. -/
theorem startStandIn_leaves :
    let t := startStandIn depth tag s
    let u := startedStandIn depth tag s
    (t.controller.depth = u.controller.depth ∧ t.controller.divert = true ∧ t.controller.drain = u.controller.drain)
      ∧ (t.responder = u.responder ∧ t.classifier = u.classifier ∧ t.builder = u.builder ∧ t.keeper = u.keeper
        ∧ t.hold = u.hold ∧ t.port = u.port ∧ t.counters = u.counters)
      ∧ t.wake.policy = u.wake.policy ∧ t.wake.record.depth = u.wake.record.depth
      ∧ t.wake.record.outcome = u.wake.record.outcome ∧ t.wake.record.noted = u.wake.record.noted := by
  dsimp only
  rcases startStandIn_cases depth tag s with hgoes | ⟨linkDown, hends⟩
  · rw [hgoes]
    refine ⟨⟨rfl, ?_, rfl⟩, ⟨rfl, rfl, rfl, rfl, rfl, rfl, rfl⟩, rfl, rfl, rfl, rfl⟩
    rw [startedStandIn_controller, startBlocks, changeState_eq]
    rfl
  · rw [hends]
    generalize startedStandIn depth tag s = u
    obtain ⟨hdepth, hdivert, hdrain, hpolicy, hdepth', houtcome⟩ := endArming_leaves linkDown u
    obtain ⟨_, hresponder, hclassifier, hbuilder, hkeeper, hhold, hport, hcounters, _⟩ := endArming_keeps linkDown u
    exact ⟨⟨hdepth, hdivert, hdrain⟩, ⟨hresponder, hclassifier, hbuilder, hkeeper, hhold, hport, hcounters⟩, hpolicy,
      hdepth', houtcome, endArming_noted _ _⟩

/-- The controller, the rules and the host port of the stand-in started. -/
theorem startedStandIn_begun :
    (startedStandIn depth tag s).controller =
        { s.controller with standIn := .arming, divert := true, depth := some depth }
      ∧ (startBlocks depth tag s).classifier =
        { s.classifier with rules := s.classifier.rules.map (fun r => { r with hits := 0, overflows := 0 }) } := by
  rw [startedStandIn_controller, startBlocks, changeState_eq]
  exact ⟨rfl, rfl⟩

end

/-- The host port from the taking of a hand-over on. -/
theorem startedStandIn_taken_host (depth : Depth) (tag : Byte) (s : State) :
    (startedStandIn depth tag (setPrevious .taken s)).host =
      { afterChanges [(.arming, .handedOver)] s with previous := .taken, inFlight := some tag } := by
  have hpasses := passesNotices_taken.afterChanges [(.arming, .handedOver)] s
  rw [startedStandIn_host]
  exact congrArg (fun h : HostPort => { h with inFlight := some tag }) hpasses

/-- The device in ARMING, the change told. -/
def armed (s : State) : State :=
  { s with host := afterChanges [(.arming, .handedOver)] s, controller := { s.controller with standIn := .arming } }

/-- Arming that ends with the taking: its state, and the host port with the reply (R3, R8, R11). -/
theorem endArming_taken {depth : Depth} {tag : Byte} {s : State} {linkDown : Bool}
    (hdone : (startedStandIn depth tag (setPrevious .taken s)).responder.settledDone = 0)
    (hrefused : (startedStandIn depth tag (setPrevious .taken s)).responder.settledRefused = 0) :
    let t := endArming linkDown (startedStandIn depth tag (setPrevious .taken s))
    t.controller.standIn = (if t.wake.record.enabled = 0 then .standing else .calling)
      ∧ t.host =
          { afterChanges
              ([(.arming, .handedOver), (.standing, .handedOver)]
                ++ if t.wake.record.enabled = 0 then [] else [(.calling, .called)]) s with
            previous := .taken, inFlight := none,
            reply := some { tag := tag, body := [0, if linkDown then 1 else 0, 0, 0] ++ be32 s.time.toNat },
            attn := true } := by
  have hhost := startedStandIn_taken_host depth tag s
  have hstarted := (startedStandIn_begun depth tag (setPrevious .taken s)).1
  have htime : (startedStandIn depth tag (setPrevious .taken s)).time = s.time :=
    (startedStandIn_leaves depth tag (setPrevious .taken s)).1
  dsimp only
  generalize startedStandIn depth tag (setPrevious .taken s) = u at *
  have hst : u.controller.standIn = .arming := by rw [hstarted]
  obtain ⟨henabled, hstate, hends⟩ := endArming_does linkDown u tag hst (by rw [hhost])
  rw [henabled]
  refine ⟨hstate, hends.trans ?_⟩
  have hchanges : ∀ changes, afterChanges changes u =
      { afterChanges ([(.arming, .handedOver)] ++ changes) s with previous := .taken, inFlight := some tag } :=
    fun changes => (afterChanges_congr
      (s := { armed s with host := { (armed s).host with previous := .taken, inFlight := some tag } }) hhost htime hst
        changes).trans ((passesNotices_begun tag).afterChanges changes (armed s))
  rw [hchanges, handOverReply, hdone, hrefused, htime]
  rfl

theorem reqHandOver_badField {tag : Byte} {body : List Byte} {s : State} (hst : s.controller.standIn = .attended)
    (hlength : body.length = 1) (hdepth : depthOf (at1 body 0) = none) : reqHandOver tag body s = refuse tag .badField s := by
  rw [reqHandOver, judged_of_none (editCheck_passed (by simp [hlength]) hst), hdepth]

theorem reqHandOver_judged {tag : Byte} {body : List Byte} {s : State} (hst : s.controller.standIn = .attended)
    (hlength : body.length = 1) {d : Depth} (hdepth : depthOf (at1 body 0) = some d) :
    reqHandOver tag body s = judged tag (handOverCheck s) (startStandIn d tag) s := by
  rw [reqHandOver, judged_of_none (editCheck_passed (by simp [hlength]) hst), hdepth]

/-- Of the responder only the list has changed since the blocks were started. -/
theorem startedStandIn_responder (depth : Depth) (tag : Byte) (s : State) :
    (startedStandIn depth tag s).responder =
      { (startBlocks depth tag s).responder with list := (startedStandIn depth tag s).responder.list } := by
  cases hlink : s.port.linkUp
  · rw [(startedStandIn_down depth tag s hlink).2]
  · exact (startedStandIn_listed depth tag s hlink).1

theorem startBlocks_settled (depth : Depth) (tag : Byte) (s : State) :
    (startBlocks depth tag s).responder.settledDone = 0 ∧ (startBlocks depth tag s).responder.settledRefused = 0 :=
  ⟨rfl, rfl⟩

/-- The entries as they stand at the hand-over (R28). -/
def handedOver (s : State) : List (Option IdentityEntry) :=
  s.responder.entries.map (Option.map (fun e =>
    { e with
      state := if e.isAddress ∧ (e.state = .expired ∨ e.deadlinePassed s.time = true) then .expired else .active
      conflicts := 0, lastDefence := none, answers := 0, report := none, budget := 0, defence := false
      leaseMark := e.marginReached s.time s.wake.policy.leaseMargin }))

section
variable (d : Depth) (tag : Byte) (s : State)

theorem startBlocks_entries : (startBlocks d tag s).responder.entries = handedOver s := by
  rw [(startBlocks_tables d tag _).1]
  exact congrArg (fun f => s.responder.entries.map (Option.map f)) (funext fun e => handOver_entry e _ _)

/-- A session is LOST at the hand-over where its entry is EXPIRED. -/
theorem startBlocks_lost_iff :
    (∃ j x, lookup (startBlocks d tag s).keeper.sessions j = some x ∧ x.state = .lost)
      ↔ ∃ j x e, lookup s.keeper.sessions j = some x ∧ lookup (handedOver s) x.localIndex = some e
          ∧ e.state = .expired := by
  rw [(startBlocks_tables d tag _).2, startBlocks_entries]
  refine ⟨?_, ?_⟩
  · rintro ⟨j, x, hx, hlost⟩
    rw [lookup_mapTable] at hx
    obtain ⟨y, hy, rfl⟩ := Option.map_eq_some_iff.mp hx
    obtain ⟨e, he, hexpired⟩ := (handOver_lost_iff _ _ _).mp hlost
    exact ⟨j, y, e, hy, he, hexpired⟩
  · rintro ⟨j, y, e, hy, he, hexpired⟩
    exact ⟨j, y.handOver (handedOver s) s.time, by rw [lookup_mapTable]; exact congrArg (Option.map _) hy,
      (handOver_lost_iff _ _ _).mpr ⟨e, he, hexpired⟩⟩

theorem startedStandIn_settled :
    (startedStandIn d tag s).responder.settledDone = 0 ∧ (startedStandIn d tag s).responder.settledRefused = 0 := by
  rw [startedStandIn_responder]
  exact startBlocks_settled d tag s

/-- Where no cause is noted at the hand-over, the wake unit stands as cleared. -/
theorem startStandIn_wake_of_none (hleases : ¬ ∃ i e, lookup (handedOver s) i = some e ∧ e.leaseMark = true)
    (hlost : ¬ ∃ j x e, lookup s.keeper.sessions j = some x ∧ lookup (handedOver s) x.localIndex = some e
      ∧ e.state = .expired) :
    (startStandIn d tag s).wake = clearWake d s.wake := by
  have hwake := startedStandIn_wake_of_none d tag s (by rw [startBlocks_entries]; exact hleases)
    (by rw [startBlocks_lost_iff]; exact hlost)
  rcases startStandIn_cases d tag s with hgoes | ⟨linkDown, hends⟩
  · rw [hgoes, hwake]
  · rw [hends, endArming_wake_of_none (by rw [hwake]; rfl), hwake]
    rfl

/-- With the link UP and entries to announce, the hand-over leaves the state in ARMING. -/
theorem startStandIn_arming (hlink : s.port.linkUp = true) (hlist : announcementList (handedOver s) ≠ []) :
    startStandIn d tag s = startedStandIn d tag s := by
  have hunsettled := startedStandIn_unsettled d tag s hlink
  have hpos := List.length_pos_iff.mpr hlist
  rw [startBlocks_entries] at hunsettled
  exact (startStandIn_of_up d tag s hlink).trans (if_neg fun hends => by omega)

/-- With the link UP and no entry to announce, arming ends at the taking. -/
theorem startStandIn_ends (hlink : s.port.linkUp = true) (hlist : announcementList (handedOver s) = [])
    (hbuilds : BuildsOk s) : startStandIn d tag s = endArming false (startedStandIn d tag s) := by
  have hunsettled := startedStandIn_unsettled d tag s hlink
  rw [startBlocks_entries, hlist, listItemsOf_next hbuilds] at hunsettled
  exact (startStandIn_of_up d tag s hlink).trans
    (if_pos ⟨by rw [(startedStandIn_begun d tag s).1], hunsettled⟩)

end

/-- Settles O42: the stand-in started, and the end of arming where it comes with the taking. -/
theorem handOverStartsStandIn : Obligations.HandOverStartsStandIn := by
  intro tag body s d hfree hst hlength
  refine ⟨fun hdepth => ?_, fun st hdepth hcheck => ?_, fun hdepth hcheck => ?_⟩
  · refine exec_refused hfree (k := .handOver) ?_
    exact reqHandOver_badField (s := setPrevious .taken s) hst hlength hdepth
  · refine exec_refused hfree (k := .handOver) ?_
    exact (reqHandOver_judged (s := setPrevious .taken s) hst hlength hdepth).trans
      (judged_of_some (by exact hcheck) _ _)
  intro entries leases losses
  have hexec : exec (.handOver tag body) s = .next (startStandIn d tag (setPrevious .taken s)) :=
    (exec_taken hfree .handOver tag body).trans (congrArg Host.Outcome.next
      ((reqHandOver_judged (s := setPrevious .taken s) hst hlength hdepth).trans
        (judged_of_none (by exact hcheck) _ _)))
  have hentries : (startBlocks d tag (setPrevious .taken s)).responder.entries = entries := startBlocks_entries d tag _
  have hlosses : (∃ j x, lookup (startBlocks d tag (setPrevious .taken s)).keeper.sessions j = some x ∧ x.state = .lost)
      ↔ losses := startBlocks_lost_iff d tag _
  obtain ⟨⟨hdepth', hdivert, hdrain⟩, ⟨hresponder, hclassifier, hbuilder, hkeeper, hhold, hport, hcounters⟩, hpolicy,
    hrecordDepth, houtcome, hnoted⟩ := startStandIn_leaves d tag (setPrevious .taken s)
  obtain ⟨hbegun, hrules⟩ := startedStandIn_begun d tag (setPrevious .taken s)
  obtain ⟨hcounters', hlink', hbuffer'⟩ := startedStandIn_placed d tag (setPrevious .taken s)
  obtain ⟨htime', hhold', hbuilder', hclassifier'⟩ := startedStandIn_leaves d tag (setPrevious .taken s)
  obtain ⟨⟨hdepth'', hattempts, houtcome'⟩, hpolicy', hphase, hwakereq⟩ :=
    startedStandIn_recorded d tag (setPrevious .taken s)
  have hcauses := startedStandIn_noted d tag (setPrevious .taken s)
  have hresponder' := startedStandIn_responder d tag (setPrevious .taken s)
  obtain ⟨hdone, hrefused⟩ := startedStandIn_settled d tag (setPrevious .taken s)
  have hbuild : (startStandIn d tag (setPrevious .taken s)).responder.build = s.responder.build + 1 := by
    rw [hresponder, hresponder', startBlocks_build]
    rfl
  rw [hentries, hlosses] at hcauses
  refine ⟨_, hexec, ?_, hdivert, ?_, ?_, ?_, ?_, ?_, ?_, ?_, ?_, ?_, ?_, ?_, fun c => ?_, fun hleases hlost => ?_,
    fun j x hx hidle hbound => ?_, hbuild, ?_, ?_, fun hlink => ?_, fun hlink => ?_, fun hlink hlist => ?_,
    fun flag hflag => ?_⟩
  · rw [hdepth', hbegun]
  · rw [hdrain, hbegun]
    rfl
  · rw [hresponder, hresponder']
    exact hentries
  · exact hclassifier.trans (hclassifier'.trans hrules)
  · exact hbuilder.trans hbuilder'
  · exact hhold.trans hhold'
  · rw [hport, hlink']
    rfl
  · rw [hport, hbuffer']
    rfl
  · exact hpolicy.trans hpolicy'
  · exact hcounters.trans hcounters'
  · exact hrecordDepth.trans hdepth''
  · exact houtcome.trans houtcome'
  · rw [hnoted]
    exact hcauses c
  · exact startStandIn_wake_of_none d tag (setPrevious .taken s) hleases hlost
  · rw [hkeeper]
    have hsession := startedStandIn_session d tag (setPrevious .taken s) hx hidle hbound
    rw [hentries] at hsession
    exact hsession
  · rw [hresponder, hdone]
  · rw [hresponder, hrefused]
  · obtain ⟨_, new, hqueue, hitems⟩ := startedStandIn_listed d tag (setPrevious .taken s) hlink
    have hroom := startedStandIn_room d tag (setPrevious .taken s) hlink
    rw [startBlocks_list, hentries] at hitems
    rw [(startBlocks_keeps d tag (setPrevious .taken s)).2.2.2.1] at hqueue
    rw [pendingProbes_congr hkeeper, hport, hbuild, hresponder]
    refine ⟨new, hqueue, ?_, hroom⟩
    rw [startBlocks_build] at hitems
    exact hitems
  · obtain ⟨hstays, hlisted⟩ := startedStandIn_down d tag (setPrevious .taken s) hlink
    rw [hport, hresponder, hlisted, startBlocks_list, hentries]
    exact ⟨rfl, hstays⟩
  · rw [startStandIn_arming d tag (setPrevious .taken s) hlink hlist]
    exact ⟨by rw [hbegun], hattempts, hwakereq, hphase, startedStandIn_taken_host d tag s⟩
  · obtain ⟨linkDown, hends, rfl⟩ : ∃ linkDown : Bool, startStandIn d tag (setPrevious .taken s)
        = endArming linkDown (startedStandIn d tag (setPrevious .taken s)) ∧ flag = if linkDown then 1 else 0 := by
      rcases hflag with ⟨hlink, hlist, hbuilds, rfl⟩ | ⟨hlink, rfl⟩
      · exact ⟨false, startStandIn_ends d tag (setPrevious .taken s) hlink hlist hbuilds, rfl⟩
      · exact ⟨true, startStandIn_of_down d tag (setPrevious .taken s) hlink, rfl⟩
    rw [hends]
    exact endArming_taken hdone hrefused

end Sys2Proof.Proofs
end

section
/-! PROOFS. The layouts of the PUT requests read back (O40, O41). -/

namespace Sys2Proof.Proofs

open Sys2Proof Sys2Proof.Machine

/-! Bits and bytes. -/

theorem bitOf_of {n i : Nat} {b : Bool} (h : n / 2 ^ i % 2 = bit b) : bitOf n i = b := by
  rw [bitOf, h]
  cases b <;> rfl

theorem bit_le (b : Bool) : bit b ≤ 1 := by cases b <;> decide

theorem entryKindOf_code (k : EntryKind) : entryKindOf k.code.toNat = some k := by cases k <;> rfl

/-! Reading behind a part of a known length. -/

theorem at1_append {pre : List Byte} {o : Nat} (h : pre.length = o) (l : List Byte) (k : Nat) :
    at1 (pre ++ l) (o + k) = at1 l k := by
  subst h
  rw [at1, at1, List.getD_append_right _ _ _ _ (Nat.le_add_right _ _), Nat.add_sub_cancel_left]

theorem at2_append {pre : List Byte} {o : Nat} (h : pre.length = o) (l : List Byte) (k : Nat) :
    at2 (pre ++ l) (o + k) = at2 l k := by
  rw [at2, Nat.add_assoc, at1_append h, at1_append h, at2]

theorem at4_append {pre : List Byte} {o : Nat} (h : pre.length = o) (l : List Byte) (k : Nat) :
    at4 (pre ++ l) (o + k) = at4 l k := by
  rw [at4, Nat.add_assoc, at2_append h, at2_append h, at4]

/-! Identity entries. -/

/-- The flags of an entry's PUT layout. -/
def entryFlags (e : IdentityEntry) : Nat := bit e.defend + 2 * bit e.answer + 4 * bit e.lease.isSome

/-- The lease's length in a PUT layout. -/
def leaseSeconds (e : IdentityEntry) : Nat := (e.lease.map Lease.seconds).getD 0

theorem entryPut_eq (i : Nat) (e : IdentityEntry) : entryPut i e =
    [byte i, e.kind.code] ++ be16 e.vlan ++ [byte e.link, byte (entryFlags e)] ++ be32 (leaseSeconds e) ++ e.addr := by
  have hseconds : (match e.lease with | some l => l.seconds | none => 0) = leaseSeconds e := by
    unfold leaseSeconds
    cases e.lease <;> rfl
  unfold entryPut
  rw [← hseconds]
  rfl

/-- What the fields of an entry's PUT layout read. -/
theorem entryPut_reads {i : Nat} {e : IdentityEntry} (hi : i ≤ 23) (hvlan : e.vlan ≤ 4094) (hlink : e.link < 256)
    (hseconds : leaseSeconds e ≤ 2592000) :
    at1 (entryPut i e) 0 = i ∧ at1 (entryPut i e) 1 = e.kind.code.toNat ∧ at2 (entryPut i e) 2 = e.vlan
      ∧ at1 (entryPut i e) 4 = e.link ∧ at1 (entryPut i e) 5 = entryFlags e
      ∧ at4 (entryPut i e) 6 = leaseSeconds e ∧ (entryPut i e).drop 10 = e.addr
      ∧ (entryPut i e).length = 10 + e.addr.length := by
  have hflags : entryFlags e < 8 := by
    have := bit_le e.defend
    have := bit_le e.answer
    have := bit_le e.lease.isSome
    unfold entryFlags
    omega
  rw [entryPut_eq]
  refine ⟨?_, rfl, ?_, ?_, ?_, ?_, rfl, ?_⟩
  · exact (byte_toNat i).trans (by omega)
  · exact at2_be16 (by omega) []
  · exact (byte_toNat e.link).trans (by omega)
  · exact (byte_toNat _).trans (by omega)
  · exact at4_be32 (by omega) e.addr
  · simp only [List.length_append, be16_length, be32_length, List.length_cons, List.length_nil]

theorem entryFlags_bits (e : IdentityEntry) :
    bitOf (entryFlags e) 0 = e.defend ∧ bitOf (entryFlags e) 1 = e.answer
      ∧ bitOf (entryFlags e) 2 = e.lease.isSome ∧ entryFlags e < 8 := by
  have := bit_le e.defend
  have := bit_le e.answer
  have := bit_le e.lease.isSome
  unfold entryFlags
  exact ⟨bitOf_of (by omega), bitOf_of (by omega), bitOf_of (by omega), by omega⟩

/-- An entry's PUT layout is read as the entry. -/
theorem entryPut_readsBack {now : Time} {i : Nat} {e : IdentityEntry} (hi : i ≤ 23) (hvlan : e.vlan ≤ 4094)
    (hlink : e.link < 256) (haddr : e.addr.length = e.kind.addrLength) (hadmissible : addrAdmissible e.kind e.addr = true)
    (hplain : e.isAddress = false → e.defend = false ∧ e.answer = false ∧ e.lease = none)
    (hself : e.kind = .link → e.link = 0)
    (hlease : ∀ l, e.lease = some l → l.start = now ∧ 1 ≤ l.seconds ∧ l.seconds ≤ 2592000) :
    identityPutLengthOk (entryPut i e) = true
      ∧ identityPutEntry now (entryPut i e) =
          some (i, freshEntry e.kind e.vlan e.addr e.link e.defend e.answer e.lease) := by
  have hseconds : leaseSeconds e ≤ 2592000 := by
    unfold leaseSeconds
    cases hl : e.lease with
    | none => exact Nat.zero_le _
    | some l => exact (hlease l hl).2.2
  obtain ⟨hindex, hkind, hvlan', hlink', hflags, hseconds', haddr', hlength⟩ := entryPut_reads hi hvlan hlink hseconds
  obtain ⟨hdefend, hanswer, hleased, hbound⟩ := entryFlags_bits e
  have hflagsOk : ((e.kind == .ipv4 || e.kind == .ipv6) || entryFlags e == 0) = true := by
    cases haddress : e.isAddress
    · obtain ⟨hd, ha, hl⟩ := hplain haddress
      simp [entryFlags, hd, ha, hl, bit]
    · rw [show (e.kind == .ipv4 || e.kind == .ipv6) = true from haddress, Bool.true_or]
  have hselfOk : (e.kind != .link || e.link == 0) = true := by
    by_cases hk : e.kind = .link
    · simp [hk, hself hk]
    · simp [hk]
  have hleaseOk : (e.lease.isSome || leaseSeconds e == 0) = true
      ∧ (!e.lease.isSome || (decide (1 ≤ leaseSeconds e) && decide (leaseSeconds e ≤ 2592000))) = true
      ∧ (if e.lease.isSome then some { start := now, seconds := leaseSeconds e } else none) = e.lease := by
    unfold leaseSeconds
    cases hl : e.lease with
    | none => simp
    | some l =>
      obtain ⟨hstart, hmin, hmax⟩ := hlease l hl
      subst hstart
      simp [hmin, hmax]
  refine ⟨?_, ?_⟩
  · rw [identityPutLengthOk, hkind, entryKindOf_code]
    simp [hlength, haddr]
  · rw [identityPutEntry, hkind, entryKindOf_code]
    dsimp only
    rw [hindex, hvlan', hlink', hflags, hseconds', haddr', hdefend, hanswer, hleased, hleaseOk.2.2]
    exact if_pos ⟨hi, hvlan, hadmissible, hbound, hflagsOk, hleaseOk.1, hleaseOk.2.1, hselfOk⟩

/-! Session records. -/

/-- What the fields of a session's PUT layout read. -/
theorem sessionPutBytes_reads {i : Nat} {x : Session} (hi : i ≤ 11) (hlocal : x.localIndex < 256)
    (haddr : x.remoteAddr.length = 4 ∨ x.remoteAddr.length = 16) (hlocalPort : x.localPort < 65536)
    (hremotePort : x.remotePort < 65536) (hhop : x.nextHop.length = 6) (hwindow : x.window < 65536)
    (hinterval : x.interval ≤ 7200) (htimeout : x.timeout ≤ 60) (hlimit : x.limit ≤ 10) (hidle : x.idleAge ≤ x.interval) :
    let b := sessionPutBytes i x
    (at1 b 0 = i ∧ at1 b 1 = x.localIndex ∧ at1 b 2 = x.remoteAddr.length ∧ at1 b 3 = 0)
      ∧ (at2 b 4 = x.localPort ∧ at2 b 6 = x.remotePort ∧ slice b 8 6 = x.nextHop)
      ∧ (at4 b 14 = x.sndNxt.toNat ∧ at4 b 18 = x.rcvNxt.toNat ∧ at2 b 22 = x.window ∧ at2 b 24 = x.interval)
      ∧ (at1 b 26 = x.timeout ∧ at1 b 27 = x.limit ∧ at2 b 28 = x.idleAge)
      ∧ b.drop 30 = x.remoteAddr ∧ b.length = 30 + x.remoteAddr.length := by
  have hsnd := x.sndNxt.isLt
  have hrcv := x.rcvNxt.isLt
  let head : List Byte :=
    [byte i, byte x.localIndex, byte x.remoteAddr.length, 0] ++ be16 x.localPort ++ be16 x.remotePort
  let tail : List Byte :=
    be32 x.sndNxt.toNat ++ (be32 x.rcvNxt.toNat ++ (be16 x.window ++ (be16 x.interval
      ++ ([byte x.timeout, byte x.limit] ++ (be16 x.idleAge ++ x.remoteAddr)))))
  have hparts : sessionPutBytes i x = head ++ (x.nextHop ++ tail) := by
    simp only [sessionPutBytes, head, tail, List.append_assoc]
  have hbehind : (head ++ x.nextHop).length = 14 := by
    simp only [head, List.length_append, List.length_cons, List.length_nil, be16_length, hhop]
  have htail : sessionPutBytes i x = (head ++ x.nextHop) ++ tail := hparts.trans (List.append_assoc _ _ _).symm
  dsimp only
  refine ⟨⟨?_, ?_, ?_, ?_⟩, ⟨?_, ?_, ?_⟩, ⟨?_, ?_, ?_, ?_⟩, ⟨?_, ?_, ?_⟩, ?_, ?_⟩
  · rw [hparts]
    exact (byte_toNat _).trans (by omega)
  · rw [hparts]
    exact (byte_toNat _).trans (by omega)
  · rw [hparts]
    exact (byte_toNat _).trans (by omega)
  · rw [hparts]
    rfl
  · rw [hparts]
    exact at2_be16 hlocalPort []
  · rw [hparts]
    exact at2_be16 hremotePort []
  · rw [hparts]
    exact slice_append rfl hhop
  · rw [htail]
    exact (at4_append hbehind tail 0).trans (at4_be32 hsnd _)
  · rw [htail]
    exact (at4_append hbehind tail 4).trans (at4_be32 hrcv [])
  · rw [htail]
    exact (at2_append hbehind tail 8).trans (at2_be16 hwindow [])
  · rw [htail]
    exact (at2_append hbehind tail 10).trans (at2_be16 (by omega) [])
  · rw [htail]
    exact (at1_append hbehind tail 12).trans ((byte_toNat _).trans (by omega))
  · rw [htail]
    exact (at1_append hbehind tail 13).trans ((byte_toNat _).trans (by omega))
  · rw [htail]
    exact (at2_append hbehind tail 14).trans (at2_be16 (by omega) [])
  · rw [htail, List.drop_append, hbehind, List.drop_eq_nil_of_le (by omega)]
    rfl
  · rw [htail, List.length_append, hbehind]
    simp only [tail, List.length_append, be16_length, be32_length, List.length_cons, List.length_nil]
    omega

/-- A session's PUT layout is read as the session with its runtime fields as a PUT starts them. -/
theorem sessionPutBytes_readsBack {n i : Nat} {x : Session} (hi : i ≤ 11) (hlocal : x.localIndex < 256)
    (haddr : x.remoteAddr.length = 4 ∨ x.remoteAddr.length = 16) (hlocalPort : x.localPort < 65536)
    (hremotePort : x.remotePort < 65536) (hhop : x.nextHop.length = 6) (hunicast : isUnicastMac x.nextHop = true)
    (hwindow : x.window < 65536) (hinterval : 10 ≤ x.interval) (hinterval' : x.interval ≤ 7200) (htimeout : 1 ≤ x.timeout)
    (htimeout' : x.timeout ≤ 60) (hlimit : 1 ≤ x.limit) (hlimit' : x.limit ≤ 10) (hidle : x.idleAge ≤ x.interval) :
    sessionPutLengthOk (sessionPutBytes i x) = true
      ∧ sessionPutRecord n (sessionPutBytes i x) =
          some
            (i,
              { x with
                state := .ready, atReturn := none, outstanding := 0, phase := .none, nextDue := none, deadline := none,
                lastHeard := none, probesSent := 0, peerAcks := 0, peerProbes := 0, dataHeld := 0, outOfWindow := 0,
                probeId := 0, firstProbe := n }) := by
  obtain ⟨⟨hindex, hlocal', haddr', hzero⟩, ⟨hport, hport', hhop'⟩, ⟨hsnd, hrcv, hwindow', hinterval''⟩,
    ⟨htimeout'', hlimit'', hidle'⟩, hrest, hlength⟩ := sessionPutBytes_reads hi hlocal haddr hlocalPort hremotePort hhop
      hwindow hinterval' htimeout' hlimit' hidle
  refine ⟨?_, ?_⟩
  · rw [sessionPutLengthOk, hlength, haddr']
    simp
  · rw [sessionPutRecord]
    rw [hindex, hlocal', haddr', hzero, hport, hport', hhop', hsnd, hrcv, hwindow', hinterval'', htimeout'', hlimit'',
      hidle', hrest, BitVec.ofNat_toNat, BitVec.ofNat_toNat, BitVec.setWidth_eq, BitVec.setWidth_eq]
    exact if_pos ⟨hi, haddr, rfl, hinterval, hinterval', htimeout, htimeout', hlimit, hlimit', hidle, hunicast⟩

/-! The policy record. -/

theorem policyBytes_readsBack {p : Policy} (hlight : p.light.toNat < 128) (hdeep : p.deep.toNat < 128)
    (hmark : 25 ≤ p.highMark) (hmark' : p.highMark ≤ 100) (hresponse : 1 ≤ p.wakeResponse) (hresponse' : p.wakeResponse ≤ 60)
    (hretries : p.retries ≤ 7) (hclaim : 2 ≤ p.claimWindow) (hclaim' : p.claimWindow ≤ 120) (hmargin : 10 ≤ p.leaseMargin)
    (hmargin' : p.leaseMargin ≤ 3600) (hanswer : 1 ≤ p.answerLimit) (hanswer' : p.answerLimit ≤ 1000) :
    policySetRecord (policyBytes p) = some p := by
  have hdefault : at1 (policyBytes p) 2 ≤ 1
      ∧ (if at1 (policyBytes p) 2 = 0 then DefaultAction.discard else .hold) = p.defaultAction := by
    unfold policyBytes
    cases p.defaultAction with
    | discard => exact ⟨Nat.zero_le 1, rfl⟩
    | hold => exact ⟨Nat.le_refl 1, rfl⟩
  have hoverflow : at1 (policyBytes p) 3 ≤ 1
      ∧ (if at1 (policyBytes p) 3 = 0 then HoldOverflow.dropNewest else .dropOldest) = p.overflow := by
    unfold policyBytes
    cases p.overflow with
    | dropNewest => exact ⟨Nat.zero_le 1, rfl⟩
    | dropOldest => exact ⟨Nat.le_refl 1, rfl⟩
  have hmarkRead : at1 (policyBytes p) 4 = p.highMark := (byte_toNat _).trans (by omega)
  have hresponseRead : at1 (policyBytes p) 5 = p.wakeResponse := (byte_toNat _).trans (by omega)
  have hretriesRead : at1 (policyBytes p) 6 = p.retries := (byte_toNat _).trans (by omega)
  have hclaimRead : at1 (policyBytes p) 7 = p.claimWindow := (byte_toNat _).trans (by omega)
  have hmarginRead : at2 (policyBytes p) 8 = p.leaseMargin := at2_be16 (by omega) []
  have hanswerRead : at2 (policyBytes p) 10 = p.answerLimit := at2_be16 (by omega) []
  rw [policySetRecord]
  rw [hdefault.2, hoverflow.2, hmarkRead, hresponseRead, hretriesRead, hclaimRead, hmarginRead, hanswerRead]
  exact if_pos ⟨hlight, hdeep, hdefault.1, hoverflow.1, hmark, hmark', hresponse, hresponse', hretries, hclaim, hclaim',
    hmargin, hmargin', hanswer, hanswer'⟩

/-- The PUT layout of a session holds its preset fields only. -/
theorem sessionPutBytes_congr {i : Nat} {x y : Session} (h : y = { x with
    state := y.state, atReturn := y.atReturn, outstanding := y.outstanding, phase := y.phase, nextDue := y.nextDue
    deadline := y.deadline, lastHeard := y.lastHeard, probesSent := y.probesSent, peerAcks := y.peerAcks
    peerProbes := y.peerProbes, dataHeld := y.dataHeld, outOfWindow := y.outOfWindow, probeId := y.probeId
    firstProbe := y.firstProbe }) : sessionPutBytes i y = sessionPutBytes i x := by
  rw [h]
  rfl

/-- Settles O40: the three layouts by their fields. -/
theorem putLayoutsReadBack : Obligations.PutLayoutsReadBack := by
  refine ⟨fun now i e => entryPut_readsBack, fun n i x hi hlocal haddr hlocalPort hremotePort hhop hunicast hwindow
    hinterval hinterval' htimeout htimeout' hlimit hlimit' hidle => ?_, fun p => policyBytes_readsBack⟩
  obtain ⟨hlength, hread⟩ := sessionPutBytes_readsBack (n := n) hi hlocal haddr hlocalPort hremotePort hhop hunicast hwindow
    hinterval hinterval' htimeout htimeout' hlimit hlimit' hidle
  exact ⟨hlength, _, hread, sessionPutBytes_congr rfl, rfl, rfl, rfl, rfl, rfl, rfl, rfl, rfl, rfl, rfl, rfl, rfl⟩

end Sys2Proof.Proofs
end

section
/-! PROOFS. The rule layout read back, field by field (O41). -/

namespace Sys2Proof.Proofs

open Sys2Proof Sys2Proof.Machine

/-! The match fields laid out in order. -/

/-- The bytes of a source range. -/
def prefixBytes (p : SourcePrefix) : List Byte := [if p.addr.length = 4 then 4 else 6, byte p.bits] ++ p.addr

/-- The bytes of a payload pattern. -/
def patternBytes (p : Pattern) : List Byte := [byte p.offset, byte p.bytes.length] ++ p.bytes ++ p.mask

/-- The bytes of match field i. -/
def fieldBytes (m : MatchFields) (i : Nat) : List Byte :=
  match i with
  | 0 => (m.vlan.map be16).getD []
  | 1 => (m.etherType.map be16).getD []
  | 2 => (m.ipVersion.map (fun v => [byte v])).getD []
  | 3 => (m.ipProto.map (fun v => [byte v])).getD []
  | 4 => (m.source.map prefixBytes).getD []
  | 5 => (m.destIndex.map (fun v => [byte v])).getD []
  | 6 => (m.ports.map (fun p => be16 p.1 ++ be16 p.2)).getD []
  | 7 => (m.tcpFlags.map (fun p => [p.1, p.2])).getD []
  | 8 => (m.pattern.map patternBytes).getD []
  | _ => []

/-- Match field i is present. -/
def fieldPresent (m : MatchFields) (i : Nat) : Bool :=
  match i with
  | 0 => m.vlan.isSome
  | 1 => m.etherType.isSome
  | 2 => m.ipVersion.isSome
  | 3 => m.ipProto.isSome
  | 4 => m.source.isSome
  | 5 => m.destIndex.isSome
  | 6 => m.ports.isSome
  | 7 => m.tcpFlags.isSome
  | 8 => m.pattern.isSome
  | _ => false

/-- The match fields from field i on. -/
def fieldsFrom (m : MatchFields) (i : Nat) : List Byte := ((List.range' i (9 - i)).map (fieldBytes m)).flatten

theorem fieldsFrom_succ {i : Nat} (hi : i < 9) (m : MatchFields) :
    fieldsFrom m i = fieldBytes m i ++ fieldsFrom m (i + 1) := by
  rw [fieldsFrom, show 9 - i = (9 - (i + 1)) + 1 by omega, List.range'_succ]
  rfl

theorem matchBytes_eq (m : MatchFields) : matchBytes m = fieldsFrom m 0 := by
  have hfields : matchBytes m = fieldBytes m 0 ++ fieldBytes m 1 ++ fieldBytes m 2 ++ fieldBytes m 3 ++ fieldBytes m 4
      ++ fieldBytes m 5 ++ fieldBytes m 6 ++ fieldBytes m 7 ++ fieldBytes m 8 := by
    obtain ⟨vlan, etherType, ipVersion, ipProto, source, destIndex, ports, tcpFlags, pattern⟩ := m
    unfold matchBytes
    refine congrArg₂ (· ++ ·) (congrArg₂ (· ++ ·) (congrArg₂ (· ++ ·) (congrArg₂ (· ++ ·) (congrArg₂ (· ++ ·)
      (congrArg₂ (· ++ ·) (congrArg₂ (· ++ ·) (congrArg₂ (· ++ ·) ?_ ?_) ?_) ?_) ?_) ?_) ?_) ?_) ?_
    · cases vlan <;> rfl
    · cases etherType <;> rfl
    · cases ipVersion <;> rfl
    · cases ipProto <;> rfl
    · cases source <;> rfl
    · cases destIndex <;> rfl
    · cases ports <;> rfl
    · cases tcpFlags <;> rfl
    · cases pattern <;> rfl
  rw [hfields]
  simp [fieldsFrom, List.range']

theorem presenceMask_bits (m : MatchFields) :
    presenceMask m < 512 ∧ ∀ i, i < 9 → bitOf (presenceMask m) i = fieldPresent m i := by
  have h0 := bit_le m.vlan.isSome
  have h1 := bit_le m.etherType.isSome
  have h2 := bit_le m.ipVersion.isSome
  have h3 := bit_le m.ipProto.isSome
  have h4 := bit_le m.source.isSome
  have h5 := bit_le m.destIndex.isSome
  have h6 := bit_le m.ports.isSome
  have h7 := bit_le m.tcpFlags.isSome
  have h8 := bit_le m.pattern.isSome
  unfold presenceMask
  refine ⟨by omega, fun i hi => bitOf_of ?_⟩
  interval_cases i <;> simp only [fieldPresent] <;> omega

/-! The fields of a body. -/

/-- The bytes of a rule's PUT before its match fields. -/
def ruleHead (p : Nat) (r : Rule) : List Byte :=
  byte p :: (be16 (presenceMask r.fields)
    ++ [r.action.code, byte r.action.templateIndex, r.overflow.code, periodCode r.period] ++ be16 r.limit)

theorem ruleBody_eq (p : Nat) (r : Rule) : byte p :: ruleBytes r = ruleHead p r ++ fieldsFrom r.fields 0 := by
  rw [ruleBytes, matchBytes_eq]
  rfl

/-- A match field stands at its offset in a body. -/
def LaidAt (body : List Byte) (m : MatchFields) (i : Nat) : Prop :=
  ∃ before, body = before ++ fieldsFrom m i ∧ before.length = matchFieldOffset body i

/-- The values of the match fields fit in the layout. -/
def FieldsFit (m : MatchFields) : Prop :=
  (∀ v, m.vlan = some v → v < 65536) ∧ (∀ v, m.etherType = some v → v < 65536) ∧ (∀ v, m.ipVersion = some v → v < 256)
    ∧ (∀ v, m.ipProto = some v → v < 256)
    ∧ (∀ x, m.source = some x → (x.addr.length = 4 ∨ x.addr.length = 16) ∧ x.bits < 256)
    ∧ (∀ v, m.destIndex = some v → v < 256) ∧ (∀ x, m.ports = some x → x.1 < 65536 ∧ x.2 < 65536)
    ∧ (∀ x, m.pattern = some x → x.offset < 256 ∧ x.bytes.length < 256 ∧ x.mask.length = x.bytes.length)

section
variable {body : List Byte} {m : MatchFields}

/-- The size read of a source range is the size laid out. -/
theorem matchFieldSize_source_laid (hfit : FieldsFit m) {o : Nat} (hpresent : fieldPresent m 4 = true)
    {before after : List Byte} (hbody : body = before ++ (fieldBytes m 4 ++ after)) (ho : before.length = o) :
    matchFieldSize body o 4 = (fieldBytes m 4).length := by
  obtain ⟨_, _, _, _, hsource, _⟩ := hfit
  obtain ⟨x, hx⟩ := Option.isSome_iff_exists.mp hpresent
  obtain ⟨haddr, _⟩ := hsource x hx
  have hread : at1 body o = if x.addr.length = 4 then 4 else 6 := by
    rw [hbody, fieldBytes, hx]
    refine (at1_append ho _ 0).trans ?_
    show (if x.addr.length = 4 then (4 : Byte) else 6).toNat = _
    split <;> rfl
  rw [matchFieldSize, hread, fieldBytes, hx]
  show _ = (prefixBytes x).length
  rcases haddr with hlen | hlen <;> simp [prefixBytes, hlen]

/-- The size read of a pattern is the size laid out. -/
theorem matchFieldSize_pattern_laid (hfit : FieldsFit m) {o : Nat} (hpresent : fieldPresent m 8 = true)
    {before after : List Byte} (hbody : body = before ++ (fieldBytes m 8 ++ after)) (ho : before.length = o) :
    matchFieldSize body o 8 = (fieldBytes m 8).length := by
  obtain ⟨_, _, _, _, _, _, _, hpattern⟩ := hfit
  obtain ⟨x, hx⟩ := Option.isSome_iff_exists.mp hpresent
  obtain ⟨_, hlen, hmask⟩ := hpattern x hx
  have hread : at1 body (o + 1) = x.bytes.length := by
    rw [hbody, fieldBytes, hx]
    exact (at1_append ho _ 1).trans ((byte_toNat _).trans (by omega))
  rw [matchFieldSize, hread, fieldBytes, hx]
  show _ = (patternBytes x).length
  simp only [patternBytes, List.length_append, List.length_cons, List.length_nil, hmask]
  omega

/-- The size read of a field that is present is the size laid out: of a source range and of a pattern it is read from the
body, of any other field it is fixed. -/
theorem matchFieldSize_laid (hfit : FieldsFit m) {i o : Nat} (hi : i < 9) (hpresent : fieldPresent m i = true)
    {before after : List Byte} (hbody : body = before ++ (fieldBytes m i ++ after)) (ho : before.length = o) :
    matchFieldSize body o i = (fieldBytes m i).length := by
  by_cases hsource : i = 4
  · subst hsource
    exact matchFieldSize_source_laid hfit hpresent hbody ho
  by_cases hpattern : i = 8
  · subst hpattern
    exact matchFieldSize_pattern_laid hfit hpresent hbody ho
  interval_cases i
  any_goals contradiction
  all_goals
    obtain ⟨x, hx⟩ := Option.isSome_iff_exists.mp hpresent
    rw [matchFieldSize, fieldBytes, hx]
    rfl

theorem fieldBytes_of_absent {i : Nat} (hi : i < 9) (h : fieldPresent m i = false) : fieldBytes m i = [] := by
  interval_cases i
  all_goals
    have hnone := Option.isNone_iff_eq_none.mp (Option.isSome_eq_false_iff.mp h)
    rw [fieldBytes, hnone]
    rfl

/-- The match fields of a body stand one after another. -/
theorem laidAt_of_head (hfit : FieldsFit m) (hmask : at2 body 1 = presenceMask m) {head : List Byte}
    (hhead : head.length = 9) (hbody : body = head ++ fieldsFrom m 0) {i : Nat} (hi : i ≤ 9) : LaidAt body m i := by
  induction i with
  | zero => exact ⟨head, hbody, hhead⟩
  | succ i ih =>
    obtain ⟨before, hlaid, hlength⟩ := ih (by omega)
    have hbit : bitOf (at2 body 1) i = fieldPresent m i := by rw [hmask, (presenceMask_bits m).2 i (by omega)]
    rw [fieldsFrom_succ (by omega)] at hlaid
    refine ⟨before ++ fieldBytes m i, hlaid.trans (List.append_assoc _ _ _).symm, ?_⟩
    rw [matchFieldOffset, hbit, List.length_append]
    cases hpresent : fieldPresent m i
    · rw [fieldBytes_of_absent (by omega) hpresent, hlength]
      rfl
    · rw [if_pos rfl, matchFieldSize_laid hfit (by omega) hpresent hlaid hlength, hlength]

/-- A match field read at its offset. -/
theorem fieldIf_laid {α : Type} {x : Option α} {encode : α → List Byte} {read : Nat → α} {i : Nat} (hi : i < 9)
    (hmask : at2 body 1 = presenceMask m) (hlaid : LaidAt body m i) (hpresent : fieldPresent m i = x.isSome)
    (hbytes : fieldBytes m i = (x.map encode).getD [])
    (hread : ∀ v before after, x = some v → body = before ++ (encode v ++ after) → read before.length = v) :
    fieldIf body i read = x := by
  rw [fieldIf, hmask, (presenceMask_bits m).2 i hi, hpresent]
  cases hx : x with
  | none => rfl
  | some v =>
    obtain ⟨before, hbody, hlength⟩ := hlaid
    rw [fieldsFrom_succ hi, hbytes, hx] at hbody
    rw [← hlength]
    exact (if_pos rfl).trans (congrArg some (hread v before _ hx hbody))

/-- A source range laid out in a body is read back. -/
theorem prefixBytes_reads {x : SourcePrefix} (haddr : x.addr.length = 4 ∨ x.addr.length = 16) (hbits : x.bits < 256)
    {before after : List Byte} (hbody : body = before ++ (prefixBytes x ++ after)) :
    (if at1 body before.length = 4 then 4 else 16) = x.addr.length ∧ at1 body (before.length + 1) = x.bits
      ∧ slice body (before.length + 2) x.addr.length = x.addr := by
  have hversion : at1 body before.length = if x.addr.length = 4 then 4 else 6 := by
    rw [hbody]
    refine (at1_append rfl _ 0).trans ?_
    show (if x.addr.length = 4 then (4 : Byte) else 6).toNat = _
    split <;> rfl
  refine ⟨?_, ?_, ?_⟩
  · rw [hversion]
    rcases haddr with h | h <;> simp [h]
  · rw [hbody]
    exact (at1_append rfl _ 1).trans ((byte_toNat _).trans (Nat.mod_eq_of_lt hbits))
  · have hparts : body = (before ++ [if x.addr.length = 4 then 4 else 6, byte x.bits]) ++ (x.addr ++ after) := by
      rw [hbody, prefixBytes]
      simp only [List.append_assoc]
    rw [hparts]
    exact slice_append (by simp) rfl

/-- A payload pattern laid out in a body is read back. -/
theorem patternBytes_reads {x : Pattern}
    (hfit : x.offset < 256 ∧ x.bytes.length < 256 ∧ x.mask.length = x.bytes.length) {before after : List Byte}
    (hbody : body = before ++ (patternBytes x ++ after)) :
    at1 body before.length = x.offset ∧ at1 body (before.length + 1) = x.bytes.length
      ∧ slice body (before.length + 2) x.bytes.length = x.bytes
      ∧ slice body (before.length + 2 + x.bytes.length) x.bytes.length = x.mask := by
  obtain ⟨hoffset, hcount, hmask⟩ := hfit
  have hparts : body = (before ++ [byte x.offset, byte x.bytes.length]) ++ (x.bytes ++ (x.mask ++ after)) := by
    rw [hbody, patternBytes]
    simp only [List.append_assoc]
  refine ⟨?_, ?_, ?_, ?_⟩
  · rw [hbody]
    exact (at1_append rfl _ 0).trans ((byte_toNat _).trans (Nat.mod_eq_of_lt hoffset))
  · rw [hbody]
    exact (at1_append rfl _ 1).trans ((byte_toNat _).trans (Nat.mod_eq_of_lt hcount))
  · rw [hparts]
    exact slice_append (by simp) rfl
  · rw [hparts, ← List.append_assoc]
    exact slice_append (by simp; omega) hmask

/-- The match fields of a body laid out are read back. -/
theorem ruleFields_laid (hfit : FieldsFit m) (hmask : at2 body 1 = presenceMask m)
    (hlaid : ∀ i, i ≤ 9 → LaidAt body m i) : ruleFields body = m := by
  obtain ⟨hvlan, hetherType, hipVersion, hipProto, hsource, hdestIndex, hports, hpattern⟩ := hfit
  have hfields : ruleFields body =
      { vlan := m.vlan, etherType := m.etherType, ipVersion := m.ipVersion, ipProto := m.ipProto, source := m.source
        destIndex := m.destIndex, ports := m.ports, tcpFlags := m.tcpFlags, pattern := m.pattern } := by
    unfold ruleFields
    congr 1
    · refine fieldIf_laid (encode := be16) (by omega) hmask (hlaid 0 (by omega)) rfl rfl fun v before after hv hbody => ?_
      rw [hbody]
      exact (at2_append rfl _ 0).trans (at2_be16 (hvlan v hv) after)
    · refine fieldIf_laid (encode := be16) (by omega) hmask (hlaid 1 (by omega)) rfl rfl fun v before after hv hbody => ?_
      rw [hbody]
      exact (at2_append rfl _ 0).trans (at2_be16 (hetherType v hv) after)
    · refine fieldIf_laid (encode := fun v => [byte v]) (by omega) hmask (hlaid 2 (by omega)) rfl rfl
        fun v before after hv hbody => ?_
      rw [hbody]
      exact (at1_append rfl _ 0).trans ((byte_toNat v).trans (Nat.mod_eq_of_lt (hipVersion v hv)))
    · refine fieldIf_laid (encode := fun v => [byte v]) (by omega) hmask (hlaid 3 (by omega)) rfl rfl
        fun v before after hv hbody => ?_
      rw [hbody]
      exact (at1_append rfl _ 0).trans ((byte_toNat v).trans (Nat.mod_eq_of_lt (hipProto v hv)))
    · refine fieldIf_laid (encode := prefixBytes) (by omega) hmask (hlaid 4 (by omega)) rfl rfl
        fun v before after hv hbody => ?_
      obtain ⟨hversion, hbits, haddr⟩ := prefixBytes_reads (hsource v hv).1 (hsource v hv).2 hbody
      rw [hversion, hbits, haddr]
    · refine fieldIf_laid (encode := fun v => [byte v]) (by omega) hmask (hlaid 5 (by omega)) rfl rfl
        fun v before after hv hbody => ?_
      rw [hbody]
      exact (at1_append rfl _ 0).trans ((byte_toNat v).trans (Nat.mod_eq_of_lt (hdestIndex v hv)))
    · refine fieldIf_laid (encode := fun p => be16 p.1 ++ be16 p.2) (by omega) hmask (hlaid 6 (by omega)) rfl rfl
        fun v before after hv hbody => ?_
      obtain ⟨hlow, hhigh⟩ := hports v hv
      rw [hbody]
      exact Prod.ext ((at2_append rfl _ 0).trans (at2_be16 hlow (be16 v.2 ++ after)))
        ((at2_append rfl _ 2).trans (at2_be16 hhigh after))
    · refine fieldIf_laid (encode := fun p => [p.1, p.2]) (by omega) hmask (hlaid 7 (by omega)) rfl rfl
        fun v before after hv hbody => ?_
      rw [hbody]
      refine Prod.ext ?_ ?_
      · simp
      · simp
    · refine fieldIf_laid (encode := patternBytes) (by omega) hmask (hlaid 8 (by omega)) rfl rfl
        fun v before after hv hbody => ?_
      obtain ⟨hoffset, hcount, hbytes, hmaskBytes⟩ := patternBytes_reads (hpattern v hv) hbody
      rw [hoffset, hcount, hbytes, hmaskBytes]
  exact hfields

/-- The version of a source range laid out is one of the two known ones. -/
theorem version_laid (hfit : FieldsFit m) (hmask : at2 body 1 = presenceMask m) (hlaid : LaidAt body m 4) :
    bitOf (at2 body 1) 4 = m.source.isSome
      ∧ (m.source.isSome = true → at1 body (matchFieldOffset body 4) = 4 ∨ at1 body (matchFieldOffset body 4) = 6) := by
  obtain ⟨_, _, _, _, hsource, _⟩ := hfit
  refine ⟨by rw [hmask]; exact (presenceMask_bits m).2 4 (by omega), fun hpresent => ?_⟩
  obtain ⟨x, hx⟩ := Option.isSome_iff_exists.mp hpresent
  obtain ⟨before, hbody, hlength⟩ := hlaid
  rw [fieldsFrom_succ (by omega), fieldBytes, hx] at hbody
  rw [← hlength, hbody]
  have hread := at1_append (pre := before) rfl (((some x).map prefixBytes).getD [] ++ fieldsFrom m (4 + 1)) 0
  refine Or.imp hread.trans hread.trans ?_
  show (if x.addr.length = 4 then (4 : Byte) else 6).toNat = 4 ∨ (if x.addr.length = 4 then (4 : Byte) else 6).toNat = 6
  split
  · exact .inl rfl
  · exact .inr rfl

/-- A body laid out has the length that its fields declare. -/
theorem length_of_laidAt (h : LaidAt body m 9) : body.length = matchFieldOffset body 9 := by
  obtain ⟨before, hbody, hlength⟩ := h
  rw [← hlength]
  conv_lhs => rw [hbody]
  exact congrArg List.length (List.append_nil before)

end

/-! The rule. -/

theorem ruleActionOf_code {a : RuleAction} (h : a.templateIndex ≤ 7) :
    ruleActionOf a.code.toNat a.templateIndex = some a := by
  cases a with
  | template i => exact if_pos h
  | discard => rfl
  | hold => rfl
  | wake => rfl
  | holdWake => rfl
  | echo => rfl

theorem overflowActionOf_code (a : OverflowAction) : overflowActionOf a.code.toNat = some a := by cases a <;> rfl

theorem periodClassOf_code (c : PeriodClass) : periodClassOf (periodCode c).toNat = some c := by cases c <;> rfl

/-- What the fields of a rule's PUT before its match fields read. -/
theorem ruleHead_reads {p : Nat} {r : Rule} (hlimit : r.limit ≤ 65535) (hindex : r.action.templateIndex ≤ 7)
    (rest : List Byte) :
    let body := ruleHead p r ++ rest
    at2 body 1 = presenceMask r.fields ∧ at1 body 3 = r.action.code.toNat ∧ at1 body 4 = r.action.templateIndex
      ∧ at1 body 5 = r.overflow.code.toNat ∧ at1 body 6 = (periodCode r.period).toNat ∧ at2 body 7 = r.limit := by
  have hmask := (presenceMask_bits r.fields).1
  refine ⟨?_, rfl, ?_, rfl, rfl, ?_⟩
  · exact at2_be16 (by omega) []
  · exact (byte_toNat _).trans (by omega)
  · exact at2_be16 (by omega) []

theorem fieldsFit_of_ok {m : MatchFields} (hok : matchFieldsOk m = true) (hetherType : ∀ v, m.etherType = some v → v < 65536)
    (hproto : ∀ v, m.ipProto = some v → v < 256)
    (hsource : ∀ x, m.source = some x → x.addr.length = 4 ∨ x.addr.length = 16)
    (hports : ∀ x, m.ports = some x → x.1 < 65536 ∧ x.2 < 65536)
    (hpattern : ∀ x, m.pattern = some x → x.offset < 256 ∧ x.mask.length = x.bytes.length) : FieldsFit m := by
  simp only [matchFieldsOk, Bool.and_eq_true] at hok
  obtain ⟨⟨⟨⟨⟨⟨⟨⟨hvlan, _⟩, hversion⟩, hbits⟩, hdest⟩, _⟩, _⟩, hlengths⟩, _⟩ := hok
  refine ⟨fun v hv => ?_, hetherType, fun v hv => ?_, hproto, fun x hx => ⟨hsource x hx, ?_⟩, fun v hv => ?_, hports,
    fun x hx => ?_⟩
  · have : v ≤ 4094 := by simpa [presentOk, hv] using hvlan
    omega
  · have : v = 4 ∨ v = 6 := by simpa [presentOk, hv] using hversion
    omega
  · have : x.bits ≤ 8 * x.addr.length := by simpa [presentOk, hx] using hbits
    rcases hsource x hx with h | h <;> omega
  · have : v ≤ 23 := by simpa [presentOk, hv] using hdest
    omega
  · obtain ⟨hoffset, hmask⟩ := hpattern x hx
    simp only [presentOk, hx, Bool.and_eq_true, decide_eq_true_eq] at hlengths
    exact ⟨hoffset, by omega, hmask⟩

/-- Settles O41: the match fields in their order, behind the rule's head. -/
theorem ruleLayoutReadsBack : Obligations.RuleLayoutReadsBack := by
  intro p r _ hok hlimit hlimit' hindex hetherType hproto hsource hports hpattern
  have hfit := fieldsFit_of_ok hok hetherType hproto hsource hports hpattern
  obtain ⟨hmask, haction, htemplate, hoverflow, hperiod, hlimitRead⟩ :=
    ruleHead_reads (p := p) hlimit' hindex (fieldsFrom r.fields 0)
  rw [ruleBody_eq]
  have hlaid : ∀ i, i ≤ 9 → LaidAt (ruleHead p r ++ fieldsFrom r.fields 0) r.fields i := fun i hi =>
    laidAt_of_head hfit hmask rfl rfl hi
  have hfields := ruleFields_laid hfit hmask hlaid
  have hlength := length_of_laidAt (hlaid 9 (by omega))
  obtain ⟨hbit, hversion⟩ := version_laid hfit hmask (hlaid 4 (by omega))
  have hhead : 9 ≤ (ruleHead p r ++ fieldsFrom r.fields 0).length := by
    rw [List.length_append]
    exact Nat.le_add_right 9 _
  generalize ruleHead p r ++ fieldsFrom r.fields 0 = body at *
  refine ⟨?_, ?_⟩
  · have hknown : (!bitOf (at2 body 1) 4 || at1 body (matchFieldOffset body 4) == 4
        || at1 body (matchFieldOffset body 4) == 6) = true := by
      rw [hbit]
      cases hsome : r.fields.source.isSome
      · rfl
      · rcases hversion hsome with h | h <;> simp [h]
    unfold rulePutLengthOk
    dsimp only
    rw [hknown, if_pos rfl, ← hlength]
    simp [hhead]
  · have hprefix : prefixVersionOk body = true := by
      rw [prefixVersionOk, fieldIf, hbit]
      cases hsome : r.fields.source.isSome
      · rfl
      · rw [if_pos rfl]
        rcases hversion hsome with h | h <;> simp [presentOk, h]
    rw [rulePutRule, haction, htemplate, hoverflow, hperiod, ruleActionOf_code hindex, overflowActionOf_code,
      periodClassOf_code, hmask, hfields, hlimitRead]
    exact if_pos ⟨(presenceMask_bits r.fields).1, hprefix, hlimit, hok⟩

end Sys2Proof.Proofs
end

section
/-! PROOFS. The segments of sessions (O52). -/

namespace Sys2Proof.Proofs

open Sys2Proof Sys2Proof.Machine

/-! A step of the frame in classification. -/

theorem exec_step {s : State} {c : Classification} {k : ClassStep} (hc : s.classifier.current = some c) (hk : c.step = k) :
    exec (stepEvent k) s = .next (classStep k c s) := by
  rw [exec_stepEvent, atStep_of_current _ hc hk]

/-- A step that the frame passes. -/
theorem exec_step_advance {s : State} {c : Classification} {k next : ClassStep} (hc : s.classifier.current = some c)
    (hk : c.step = k) (hstep : classStep k c s = advance next s) :
    exec (stepEvent k) s =
      .next { s with classifier := { s.classifier with current := some { c with step := next } } } := by
  rw [exec_step hc hk, hstep, advance_of_current hc]

/-! One session written. -/

/-- The device with one session of the table written. -/
def withSession (i : Nat) (y : Session) (s : State) : State :=
  { s with keeper := { s.keeper with sessions := s.keeper.sessions.set i (some y) } }

theorem touchSession_at {s : State} {i : Nat} {x : Session} (hn : nothingSuperseded s)
    (hx : lookup s.keeper.sessions i = some x) (f : Session → Session) : touchSession i f s = withSession i (f x) s := by
  rw [touchSession_eq i f s hn, modifySession, modifyAt_eq_set hx]
  rfl

theorem offered_withSession (kind : TxKind) (frame : List Byte) (i : Nat) (y : Session) (s : State) :
    withSession i y (offered kind frame s) = offered kind frame (withSession i y s) := by
  unfold offered
  split
  · rw [if_pos (by assumption)]
    rfl
  · rw [if_neg (by assumption)]
    rfl

theorem sendingStep_withSession (i : Nat) (y : Session) (s : State) :
    withSession i y (sendingStep s) = sendingStep (withSession i y s) := by
  unfold sendingStep
  split
  · rw [if_pos (by assumption)]
    rfl
  · rw [if_neg (by assumption)]

theorem offered_current (kind : TxKind) (frame : List Byte) (s : State) :
    (offered kind frame s).classifier = s.classifier ∧ (offered kind frame s).keeper = s.keeper := by
  unfold offered
  split
  · exact ⟨rfl, rfl⟩
  · exact ⟨rfl, rfl⟩

theorem offered_of_not_serving {s : State} (h : s.controller.standIn.serving = false) (kind : TxKind) (frame : List Byte) :
    offered kind frame s = { s with counters := s.counters.add (.dropped kind) 1 } :=
  if_neg fun hboth => by simp [h] at hboth

section
variable {s : State} {i : Nat} {x : Session} {f : List Byte}

/-- A segment's hold in a stand-in, with the session written by whether it is accepted. -/
theorem settledByHold_session (hserving : s.controller.standIn.serving = true) (hn : nothingSuperseded s)
    (hx : lookup s.keeper.sessions i = some x) (source : HoldSource) (own : Option Report) (g : Bool → Session → Session) :
    SettledByHold f source true own (fun held => withSession i (g held x) s)
      (settle (holdDisposition (requestHold f source true s))
        (reportTwo (highReports (requestHold f source true s)) own.toList
          (touchSession i (g (requestHold f source true s).accepted) (requestHold f source true s).state))) := by
  have hpolicy := policyRead_eq s hn
  refine settledByHold_of _ _ _ _ _ _ (fun _ => hserving) (fun m hm => ?_) (fun hrefused => ?_)
  · rw [requestHold_accepted f source true m s hserving hpolicy hm, touchSession_at (by exact hn) (by exact hx)]
    rfl
  · rw [requestHold_refused f source true s hserving hpolicy hrefused, touchSession_at (by exact hn) (by exact hx)]
    rfl

/-- A segment's hold carried over past the stand-in, with the session written by whether it is accepted. -/
theorem carriedHold_session (hn : nothingSuperseded s) (hx : lookup s.keeper.sessions i = some x) (source : HoldSource)
    (g : Bool → Session → Session) :
    CarriedHold f source true (fun held => withSession i (g held x) s)
      (settle (holdDisposition (requestHold f source true s))
        (reportAll (highReports (requestHold f source true s))
          (touchSession i (g (requestHold f source true s).accepted) (requestHold f source true s).state))) := by
  refine carriedHold_of _ _ _ _ _ (fun hst hfits => ?_) (fun hrefused => ?_)
  · rw [requestHold_returning f source true s hst hfits]
    have hn' : nothingSuperseded
        (sendingStep { s with hold := holding s f source true 0, counters := s.counters.add .displaced 0 }) :=
      nothingSuperseded_of_current (congrArg Classifier.current (sendingStep_keeps _).2.2.2.1) hn
    have hx' : lookup (sendingStep { s with hold := holding s f source true 0, counters := s.counters.add .displaced 0 }
        ).keeper.sessions i = some x := by
      rw [(sendingStep_keeps _).2.2.2.2.2.1]
      exact hx
    refine congrArg (settle .held) ?_
    refine (touchSession_at hn' hx' (g true)).trans ?_
    rw [sendingStep_withSession]
    rfl
  · rw [requestHold_turnedAway f source true s hrefused]
    refine congrArg (settle .discarded) ?_
    exact touchSession_at (by exact hn) (by exact hx) (g false)

end

/-! The kinds of segment in a stand-in. -/

/-- A session's record after its peer was heard: the next due time moves, and a round ends. -/
def heardFrom (x : Session) (now : Time) (y : Session) : Session :=
  match x.state with
  | .ready => { y with nextDue := some (now + BitVec.ofNat 32 (x.interval * 1000)) }
  | .probing =>
    { y with
      state := .ready, outstanding := 0, phase := .none, deadline := none,
      nextDue := some (now + BitVec.ofNat 32 (x.interval * 1000)) }
  | _ => y

theorem onPeerAck_eq (x : Session) (now : Time) :
    x.onPeerAck now =
      heardFrom x now { x with peerAcks := min 4294967295 (x.peerAcks + 1), lastHeard := some now } := by
  unfold Session.onPeerAck heardFrom
  cases x.state <;> rfl

theorem onPeerProbe_eq (x : Session) (kept : Bool) (now : Time) :
    x.onPeerProbe kept now =
      heardFrom x now
        { x with
          peerProbes := if kept then min 4294967295 (x.peerProbes + 1) else x.peerProbes, lastHeard := some now } := by
  unfold Session.onPeerProbe heardFrom
  cases x.state <;> rfl

/-- The record of a session whose round has ended with data, a close or a reset. -/
def endedRound (x : Session) (now : Time) : Session :=
  { x with lastHeard := some now, nextDue := none, outstanding := 0, deadline := none, phase := .none }

theorem onData_first {x : Session} (h : x.state ≠ .heardData) (held : Bool) (now : Time) :
    x.onData held now =
      { endedRound x now with
        state := .heardData, dataHeld := if held then min 4294967295 (x.dataHeld + 1) else x.dataHeld } := by
  rw [Session.onData, if_neg h]
  rfl

theorem onData_more {x : Session} (h : x.state = .heardData) (held : Bool) (now : Time) :
    x.onData held now =
      { x with
        lastHeard := some now, dataHeld := if held then min 4294967295 (x.dataHeld + 1) else x.dataHeld } := by
  rw [Session.onData, if_pos h]
  rfl

section
variable {s : State} {i : Nat} {x : Session} {f : List Byte}

theorem takeSegment_peerAck (hserving : s.controller.standIn.serving = true) (hn : nothingSuperseded s)
    (hx : lookup s.keeper.sessions i = some x) (hkind : segmentKind x x.state f = .peerAck) :
    takeSegment i x f s = settled .absorbed (withSession i (x.onPeerAck s.time) s) := by
  rw [takeSegment, hkind]
  dsimp only
  rw [touchSession_at hn hx, settle_serving _ _ (by exact hserving)]

theorem takeSegment_peerProbe (hserving : s.controller.standIn.serving = true) (hn : nothingSuperseded s)
    (hx : lookup s.keeper.sessions i = some x) (hkind : segmentKind x x.state f = .peerProbe) :
    takeSegment i x f s =
      settled .absorbed (offered .ack (segmentOf s.responder.entries x x.sndNxt)
        (withSession i (x.onPeerProbe (decide (s.port.txQueue.length < 8)) s.time) s)) := by
  have haccepted : (offerResult .ack s == .accepted) = decide (s.port.txQueue.length < 8) := by
    rw [Bool.eq_iff_iff, beq_iff_eq, decide_eq_true_iff]
    exact accepted_iff s hserving
  obtain ⟨hclassifier, hkeeper⟩ := offered_current .ack (segmentOf s.responder.entries x x.sndNxt) s
  rw [takeSegment, hkind]
  dsimp only
  rw [haccepted, entriesRead_eq s hn, offerTx_eq_offered _ _ _ (.inr rfl),
    touchSession_at (nothingSuperseded_of_current (congrArg Classifier.current hclassifier) hn) (by rw [hkeeper, hx]),
    offered_withSession, settle_serving]
  unfold offered
  split
  · exact hserving
  · exact hserving

theorem takeSegment_outOfWindow (hserving : s.controller.standIn.serving = true) (hn : nothingSuperseded s)
    (hx : lookup s.keeper.sessions i = some x) (hkind : segmentKind x x.state f = .outOfWindow) :
    takeSegment i x f s =
      settled .discarded (withSession i { x with outOfWindow := min 4294967295 (x.outOfWindow + 1) } s) := by
  rw [takeSegment, hkind]
  dsimp only
  rw [touchSession_at hn hx, settle_serving _ _ (by exact hserving)]
  rfl

theorem takeSegment_data (hserving : s.controller.standIn.serving = true) (hn : nothingSuperseded s)
    (hx : lookup s.keeper.sessions i = some x) (hkind : segmentKind x x.state f = .data) {own : Option Report}
    (hown : (if x.state = .heardData then [] else [{ cause := .sessionData, origin := some i, frame := some f }]) =
      own.toList) :
    SettledByHold f (.session i) true own (fun held => withSession i (x.onData held s.time) s) (takeSegment i x f s) := by
  rw [takeSegment, hkind]
  dsimp only
  rw [hown]
  exact settledByHold_session hserving hn hx _ own (fun held x => x.onData held s.time)

theorem takeSegment_end (hserving : s.controller.standIn.serving = true) (hn : nothingSuperseded s)
    (hx : lookup s.keeper.sessions i = some x)
    (hkind : segmentKind x x.state f = .close ∨ segmentKind x x.state f = .reset) :
    SettledByHold f (.session i) true (some (lostReport i (some f))) (fun _ => withSession i (x.onEnd s.time) s)
      (takeSegment i x f s) := by
  rw [takeSegment]
  rcases hkind with hkind | hkind
  · rw [hkind]
    exact settledByHold_session hserving hn hx _ (some (lostReport i (some f))) (fun _ x => x.onEnd s.time)
  · rw [hkind]
    exact settledByHold_session hserving hn hx _ (some (lostReport i (some f))) (fun _ x => x.onEnd s.time)

/-! The kinds of segment carried over. -/

theorem takeSegmentReturned_peerProbe (hserving : s.controller.standIn.serving = false) (hn : nothingSuperseded s)
    (hx : lookup s.keeper.sessions i = some x) {st : SessionState} (hkind : segmentKind x st f = .peerProbe) :
    takeSegmentReturned i x st f s =
      checkDrained (settled .absorbed
        { withSession i { x with lastHeard := some s.time } s with
          counters := s.counters.add (.dropped .ack) 1 }) := by
  rw [takeSegmentReturned, hkind]
  dsimp only
  rw [offerTx_eq_offered _ _ _ (.inr rfl), offered_of_not_serving hserving, touchSession_at (by exact hn) (by exact hx),
    settle_eq]
  rfl

theorem takeSegmentReturned_peerAck (hn : nothingSuperseded s) (hx : lookup s.keeper.sessions i = some x)
    {st : SessionState} (hkind : segmentKind x st f = .peerAck) :
    takeSegmentReturned i x st f s =
      checkDrained (settled .absorbed
        (withSession i { x with peerAcks := min 4294967295 (x.peerAcks + 1), lastHeard := some s.time } s)) := by
  rw [takeSegmentReturned, hkind]
  dsimp only
  rw [touchSession_at hn hx, settle_eq]
  rfl

theorem takeSegmentReturned_outOfWindow (hn : nothingSuperseded s) (hx : lookup s.keeper.sessions i = some x)
    {st : SessionState} (hkind : segmentKind x st f = .outOfWindow) :
    takeSegmentReturned i x st f s =
      checkDrained (settled .discarded (withSession i { x with outOfWindow := min 4294967295 (x.outOfWindow + 1) } s)) := by
  rw [takeSegmentReturned, hkind]
  dsimp only
  rw [touchSession_at hn hx, settle_eq]
  rfl

theorem takeSegmentReturned_data (hn : nothingSuperseded s) (hx : lookup s.keeper.sessions i = some x)
    {st : SessionState} (hkind : segmentKind x st f = .data) :
    CarriedHold f (.session i) true
      (fun held => withSession i
        { x with
          atReturn := some .heardData, dataHeld := if held then min 4294967295 (x.dataHeld + 1) else x.dataHeld } s)
      (takeSegmentReturned i x st f s) := by
  rw [takeSegmentReturned, hkind]
  exact carriedHold_session hn hx _ (fun held x =>
    { x with atReturn := some .heardData, dataHeld := if held then inc32 x.dataHeld else x.dataHeld })

theorem takeSegmentReturned_end (hn : nothingSuperseded s) (hx : lookup s.keeper.sessions i = some x)
    {st : SessionState} (hkind : segmentKind x st f = .close ∨ segmentKind x st f = .reset) :
    CarriedHold f (.session i) true (fun _ => withSession i { x with atReturn := some .closed } s)
      (takeSegmentReturned i x st f s) := by
  rw [takeSegmentReturned]
  rcases hkind with hkind | hkind
  · rw [hkind]
    exact carriedHold_session hn hx _ (fun _ x => { x with atReturn := some .closed })
  · rw [hkind]
    exact carriedHold_session hn hx _ (fun _ x => { x with atReturn := some .closed })

end

/-- Settles O52: step 4 by the match, then each kind of segment by what the keeper makes of it. -/
theorem sessionDispatchSettlesSegments : Obligations.SessionDispatchSettlesSegments := by
  intro s c hc hk
  refine ⟨fun hreached hmatch => ?_, fun hreached hmatch => ?_, fun i x hreached hmatch hserving hn => ?_,
    fun i x st hreached hmatch hst hstate hn => ?_⟩
  · refine exec_step_advance (k := .session) hc hk ?_
    rw [classStep, stepSession, hreached, if_neg Bool.false_ne_true, hmatch]
  · refine exec_step_advance (k := .session) hc hk ?_
    rw [classStep, stepSession, hreached, if_pos rfl, hmatch]
  · have hx : lookup s.keeper.sessions i = some x := by
      rw [← sessionsRead_eq s hn]
      exact (lookup_of_sessionMatch hmatch).1
    have hexec : exec .sessionDispatch s = .next (takeSegment i x c.frame s) := by
      refine (exec_step (k := .session) hc hk).trans (congrArg Host.Outcome.next ?_)
      rw [classStep, stepSession, hreached, if_neg Bool.false_ne_true, hmatch]
    intro written heard ended
    have hheard : ∀ y, heard y = heardFrom x s.time y := fun _ => rfl
    refine ⟨fun hkind => ?_, fun hkind hroom => ?_, fun hkind hfull => ?_, fun hkind => ?_, fun hkind hlive => ?_,
      fun hkind hdata => ?_, fun hkind => ?_⟩
    · rw [hexec, takeSegment_peerAck hserving hn hx hkind, onPeerAck_eq, hheard]
      rfl
    · rw [hexec, takeSegment_peerProbe hserving hn hx hkind, onPeerProbe_eq, hheard, decide_eq_true hroom]
      rfl
    · rw [hexec, takeSegment_peerProbe hserving hn hx hkind, onPeerProbe_eq, hheard,
        decide_eq_false (Nat.not_lt.mpr hfull)]
      rfl
    · rw [hexec, takeSegment_outOfWindow hserving hn hx hkind]
      rfl
    · have hfirst : x.state ≠ .heardData := by rcases hlive with h | h <;> simp [h]
      refine ⟨_, hexec, ?_⟩
      have hsettled := takeSegment_data hserving hn hx hkind
        (own := some { cause := .sessionData, origin := some i, frame := some c.frame }) (if_neg hfirst)
      simp only [onData_first hfirst] at hsettled
      exact hsettled
    · refine ⟨_, hexec, ?_⟩
      have hsettled := takeSegment_data hserving hn hx hkind (own := none) (if_pos hdata)
      simp only [onData_more hdata] at hsettled
      exact hsettled
    · exact ⟨_, hexec, takeSegment_end hserving hn hx hkind⟩
  · have hx : lookup s.keeper.sessions i = some x := by
      rw [← sessionsRead_eq s hn]
      exact (lookup_of_sessionMatch hmatch).1
    have hserving : s.controller.standIn.serving = false := by rcases hstate with h | h <;> rw [h] <;> rfl
    have hexec : exec .sessionDispatch s = .next (takeSegmentReturned i x st c.frame s) := by
      refine (exec_step (k := .session) hc hk).trans (congrArg Host.Outcome.next ?_)
      rw [classStep, stepSession, hreached, if_pos rfl, hmatch]
      dsimp only
      rw [hst]
      rfl
    refine ⟨fun hkind => ?_, fun hkind => ?_, fun hkind => ?_, fun hkind => ?_, fun hkind => ?_⟩
    · rw [hexec, takeSegmentReturned_peerAck hn hx hkind]
      rfl
    · rw [hexec, takeSegmentReturned_peerProbe hserving hn hx hkind]
      rfl
    · rw [hexec, takeSegmentReturned_outOfWindow hn hx hkind]
      rfl
    · exact ⟨_, hexec, takeSegmentReturned_data hn hx hkind⟩
    · exact ⟨_, hexec, takeSegmentReturned_end hn hx hkind⟩

end Sys2Proof.Proofs
end

section
/-! PROOFS. The answers of the identity responder (O53). -/

namespace Sys2Proof.Proofs

open Sys2Proof Sys2Proof.Machine

/-! One entry written. -/

/-- The device with one entry of the identity table written. -/
def withEntry (i : Nat) (e : IdentityEntry) (s : State) : State :=
  { s with responder := { s.responder with entries := s.responder.entries.set i (some e) } }

theorem touchEntry_at {s : State} {i : Nat} {e : IdentityEntry} (hn : nothingSuperseded s)
    (he : lookup s.responder.entries i = some e) (f : IdentityEntry → IdentityEntry) :
    touchEntry i f s = withEntry i (f e) s := by
  rw [touchEntry_eq i f s hn, modifyEntry, modifyAt_eq_set he]
  rfl

theorem lookup_withEntry {s : State} {i : Nat} {e : IdentityEntry} (he : lookup s.responder.entries i = some e)
    (e' : IdentityEntry) : lookup (withEntry i e' s).responder.entries i = some e' := by
  refine (lookup_set he i).trans (if_pos rfl)

theorem withEntry_withEntry (i : Nat) (e e' : IdentityEntry) (s : State) :
    withEntry i e' (withEntry i e s) = withEntry i e' s := by
  unfold withEntry
  rw [List.set_set]

theorem offered_withEntry (kind : TxKind) (frame : List Byte) (i : Nat) (e : IdentityEntry) (s : State) :
    withEntry i e (offered kind frame s) = offered kind frame (withEntry i e s) := by
  unfold offered
  split
  · rw [if_pos (by assumption)]
    rfl
  · rw [if_neg (by assumption)]
    rfl

theorem offered_freeCount (kind : TxKind) (frame : List Byte) (n : Nat) (s : State) :
    { offered kind frame s with freeCount := n } = offered kind frame { s with freeCount := n } := by
  unfold offered
  split
  · rfl
  · rfl

theorem offered_responder (kind : TxKind) (frame : List Byte) (s : State) :
    (offered kind frame s).responder = s.responder ∧ (offered kind frame s).controller = s.controller
      ∧ (offered kind frame s).freeCount = s.freeCount := by
  unfold offered
  split
  · exact ⟨rfl, rfl, rfl⟩
  · exact ⟨rfl, rfl, rfl⟩

/-! An address answer. -/

section
variable {s : State} {i : Nat} {e : IdentityEntry} {answer : List Byte}

/-- The answers-given count raised: by 1, or past its end to a free value (R37). -/
theorem raiseAnswers_at (hn : nothingSuperseded s) (he : lookup s.responder.entries i = some e) :
    ∃ y n, (e.answers ≠ BitVec.allOnes 32 → y = e.answers + 1 ∧ n = s.freeCount)
      ∧ raiseAnswers i s = { withEntry i { e with answers := y } s with freeCount := n } := by
  have hedited : isSuperseded (superseded s).entries i = false := by
    rw [show superseded s = noneSuperseded from hn]
    rfl
  unfold raiseAnswers
  rw [if_neg (by simp [hedited]), he]
  dsimp only
  by_cases hend : e.answers = BitVec.allOnes 32
  · refine ⟨Config.answersPastEnd s.freeCount, s.freeCount + 1, fun hne => absurd hend hne, ?_⟩
    rw [if_pos hend, modifyEntry, modifyAt_eq_set he]
    rfl
  · refine ⟨e.answers + 1, s.freeCount, fun _ => ⟨rfl, rfl⟩, ?_⟩
    rw [if_neg hend, modifyEntry, modifyAt_eq_set he]
    rfl

/-- An answer within the budget that the transmit queue takes. -/
theorem answerEntry_taken (hn : nothingSuperseded s) (he : lookup s.responder.entries i = some e)
    (hbudget : e.budget < s.wake.policy.answerLimit) (hserving : s.controller.standIn.serving = true)
    (hroom : s.port.txQueue.length < 8) :
    ∃ y n, (e.answers ≠ BitVec.allOnes 32 → y = e.answers + 1 ∧ n = s.freeCount)
      ∧ answerEntry i e answer s =
          settled .answered
            (offered .answer answer
              { withEntry i { e with budget := e.budget + 1, answers := y } s with freeCount := n }) := by
  let spent : IdentityEntry := { e with budget := e.budget + 1 }
  let u := offered .answer answer (withEntry i spent s)
  obtain ⟨hresponder, hcontroller, hfree⟩ := offered_responder .answer answer (withEntry i spent s)
  obtain ⟨hclassifier, _⟩ := offered_current .answer answer (withEntry i spent s)
  have hu : nothingSuperseded u := nothingSuperseded_of_current (congrArg Classifier.current hclassifier) hn
  have heu : lookup u.responder.entries i = some spent := by
    rw [hresponder]
    exact lookup_withEntry he spent
  obtain ⟨y, n, hy, hraised⟩ := raiseAnswers_at hu heu
  refine ⟨y, n, fun hne => ⟨(hy hne).1, (hy hne).2.trans hfree⟩, ?_⟩
  have haccepted : offerResult .answer (withEntry i spent s) = .accepted :=
    (accepted_iff (withEntry i spent s) hserving).mpr hroom
  rw [answerEntry, policyRead_eq s hn, if_pos hbudget]
  dsimp only
  rw [touchEntry_at hn he, if_pos haccepted, offerTx_eq_offered _ _ _ (.inl rfl), hraised, offered_withEntry,
    withEntry_withEntry, offered_freeCount, settle_serving]
  rw [(offered_responder _ _ _).2.1]
  exact hserving

/-- An answer within the budget that is dropped. -/
theorem answerEntry_dropped (hn : nothingSuperseded s) (he : lookup s.responder.entries i = some e)
    (hbudget : e.budget < s.wake.policy.answerLimit)
    (hdropped : s.controller.standIn.serving = false ∨ 8 ≤ s.port.txQueue.length) :
    answerEntry i e answer s =
      checkDrained (settled .answered (offered .answer answer (withEntry i { e with budget := e.budget + 1 } s))) := by
  have hrefused : offerResult .answer (withEntry i { e with budget := e.budget + 1 } s) ≠ .accepted := by
    intro haccepted
    cases hserving : s.controller.standIn.serving
    · simp [offerResult, withEntry, hserving] at haccepted
    · have hroom := (accepted_iff (withEntry i { e with budget := e.budget + 1 } s) hserving).mp haccepted
      rcases hdropped with hnot | hfull
      · simp [hserving] at hnot
      · exact absurd hroom (Nat.not_lt.mpr hfull)
  rw [answerEntry, policyRead_eq s hn, if_pos hbudget]
  dsimp only
  rw [touchEntry_at hn he, if_neg hrefused, offerTx_eq_offered _ _ _ (.inl rfl), settle_eq]

theorem answerEntry_overBudget (hn : nothingSuperseded s) (hbudget : s.wake.policy.answerLimit ≤ e.budget) :
    answerEntry i e answer s = checkDrained (settled .discarded { s with counters := s.counters.add .overBudget 1 }) := by
  rw [answerEntry, policyRead_eq s hn, if_neg (Nat.not_lt.mpr hbudget), settle_eq]
  rfl

end

/-! The frames of the responder. -/

section
variable {s : State} {c : Classification} {f : List Byte} {ip : IpFields}

theorem exec_responder (hc : s.classifier.current = some c) (hk : c.step = .responder) {kind : ResponderKind}
    (hkind : responderKind c.frame = some kind) :
    exec .responderDispatch s = .next (takeResponderFrame kind c.frame s) := by
  refine (exec_step (k := .responder) hc hk).trans (congrArg Host.Outcome.next ?_)
  rw [classStep, stepResponder, hkind]

theorem takeResponderFrame_arp : takeResponderFrame .arp f s = takeArp f s := by
  unfold takeResponderFrame
  rfl

theorem takeResponderFrame_solicitation (hip : readIp f = some ip) :
    takeResponderFrame .solicitation f s = takeSolicitation f ip s := by
  unfold takeResponderFrame
  rw [hip]

theorem takeResponderFrame_advertisement (hip : readIp f = some ip) :
    takeResponderFrame .advertisement f s = takeAdvertisement f ip s := by
  unfold takeResponderFrame
  rw [hip]

theorem takeArp_answered (hok : arpOk (layerData f) = true) (hconflict : arpConflict (entriesRead s) f = none)
    {p : Nat × IdentityEntry} (htarget : arpTarget (entriesRead s) f = some p) :
    takeArp f s = answerEntry p.1 p.2 (arpReply f (linkMac (entriesRead s) p.2) p.2.addr) s := by
  rw [takeArp, if_pos hok, hconflict]
  dsimp only
  rw [htarget]

theorem takeArp_discarded (h : arpOk (layerData f) = false
      ∨ (arpConflict (entriesRead s) f = none ∧ arpTarget (entriesRead s) f = none)) :
    takeArp f s = settle .discarded s := by
  unfold takeArp
  rcases h with hbad | ⟨hconflict, htarget⟩
  · rw [if_neg (by simp [hbad])]
  · dsimp only
    split
    · rw [hconflict]
      dsimp only
      rw [htarget]
    · rfl

theorem takeSolicitation_answered (hok : neighbourOk ip = true) {p : Nat × IdentityEntry}
    (hentry : solicitedEntry (entriesRead s) f ip = some p) :
    takeSolicitation f ip s = answerEntry p.1 p.2 (solicitedAnswer f ip.src (linkMac (entriesRead s) p.2) p.2.addr) s := by
  rw [takeSolicitation, if_pos hok, hentry]

theorem takeSolicitation_discarded (h : neighbourOk ip = false ∨ solicitedEntry (entriesRead s) f ip = none) :
    takeSolicitation f ip s = settle .discarded s := by
  unfold takeSolicitation
  rcases h with hbad | hentry
  · rw [if_neg (by simp [hbad])]
  · dsimp only
    split
    · rw [hentry]
    · rfl

theorem takeAdvertisement_discarded (h : neighbourOk ip = false ∨ advertConflict (entriesRead s) f ip = none) :
    takeAdvertisement f ip s = settle .discarded s := by
  unfold takeAdvertisement
  rcases h with hbad | hconflict
  · rw [if_neg (by simp [hbad])]
  · split
    · rw [hconflict]
    · rfl

end

/-- Settles O53: the entry asked for, then its budget and the transmit queue. -/
theorem responderDispatchAnswers : Obligations.ResponderDispatchAnswers := by
  intro s c hc hk
  refine ⟨fun hkind => ?_, fun i e answer hasked hn => ?_, fun hnone => ?_⟩
  · refine exec_step_advance (k := .responder) hc hk ?_
    rw [classStep, stepResponder, hkind]
  · have hread := entriesRead_eq s hn
    obtain ⟨he, hexec⟩ : lookup s.responder.entries i = some e
        ∧ exec .responderDispatch s = .next (answerEntry i e answer s) := by
      rcases hasked with ⟨hkind, hok, hconflict, htarget, rfl⟩ | ⟨ip, hkind, hip, hok, hentry, rfl⟩
      · refine ⟨lookup_of_arpTarget (by rw [← hread]; exact htarget), ?_⟩
        rw [exec_responder hc hk hkind, takeResponderFrame_arp, takeArp_answered hok hconflict htarget, hread]
      · refine ⟨lookup_of_solicitedEntry (by rw [← hread]; exact hentry), ?_⟩
        rw [exec_responder hc hk hkind, takeResponderFrame_solicitation hip, takeSolicitation_answered hok hentry, hread]
    refine ⟨fun hbudget hserving hroom => ?_, fun hbudget hdropped => ?_, fun hbudget => ?_⟩
    · obtain ⟨y, n, hy, hanswered⟩ := answerEntry_taken (answer := answer) hn he hbudget hserving hroom
      exact ⟨y, n, hy, hexec.trans (congrArg Host.Outcome.next hanswered)⟩
    · rw [hexec, answerEntry_dropped hn he hbudget hdropped]
      rfl
    · rw [hexec, answerEntry_overBudget hn hbudget]
  · rcases hnone with ⟨hkind, hbad⟩ | ⟨ip, hip, ⟨hkind, hbad⟩ | ⟨hkind, hbad⟩⟩
    · rw [exec_responder hc hk hkind, takeResponderFrame_arp, takeArp_discarded hbad, settle_eq]
    · rw [exec_responder hc hk hkind, takeResponderFrame_solicitation hip, takeSolicitation_discarded hbad, settle_eq]
    · rw [exec_responder hc hk hkind, takeResponderFrame_advertisement hip, takeAdvertisement_discarded hbad, settle_eq]

end Sys2Proof.Proofs
end

section
/-! PROOFS. An entry that leaves ACTIVE, and conflicting frames (O54). -/

namespace Sys2Proof.Proofs

open Sys2Proof Sys2Proof.Machine

/-! An entry leaves ACTIVE. -/

/-- Sessions lost outside STANDING change only the wake unit and the sessions. -/
theorem loseSessions_of_not_standing (i : Nat) {s : State} (hst : s.controller.standIn ≠ .standing) :
    ∃ w k, loseSessions i s = { s with wake := w, keeper := k } := by
  unfold loseSessions
  generalize sessionsOf i s = l
  induction l generalizing s with
  | nil => exact ⟨s.wake, s.keeper, rfl⟩
  | cons j l ih =>
    obtain ⟨w, hw⟩ := reportCause_of_not_standing (lostReport j none) (s := modifySession j Session.lose s) hst
    obtain ⟨w', k', hrest⟩ := ih (s := { modifySession j Session.lose s with wake := w }) hst
    refine ⟨w', k', ?_⟩
    rw [List.foldl_cons, loseSession, hw, hrest]
    rfl

/-- The device with an entry's item taken off the announcement list. -/
def unlisted (i : Nat) (s : State) : State :=
  { s with responder := { s.responder with list := s.responder.list.filter (fun j => j != i) } }

theorem leaveActive_of_serving {i : Nat} {s : State} (h : s.controller.standIn.serving = true) :
    leaveActive i s = checkArmingEnd (loseSessions i (unlisted i s)) := if_pos h

theorem leaveActive_of_not_serving {i : Nat} {s : State} (h : s.controller.standIn.serving = false) :
    leaveActive i s = unlisted i s := if_neg (by simp [h])

/-- An entry leaves ACTIVE in a stand-in (R32, R106). -/
theorem leaveActive_does {i : Nat} {s : State} (hserving : s.controller.standIn.serving = true) :
    let t := leaveActive i s
    (t.responder = (unlisted i s).responder ∧ t.keeper = { s.keeper with sessions := lostWith i s.keeper.sessions })
      ∧ (t.port = s.port ∧ t.counters = s.counters ∧ t.hold = s.hold ∧ t.builder = s.builder
        ∧ t.classifier = s.classifier)
      ∧ t.controller.standIn.serving = true
      ∧ ((∃ x, some x ∈ s.keeper.sessions ∧ x.localIndex = i ∧ x.state.live = true) →
          t.wake.record.noted = s.wake.record.noted.join .sessionLost)
      ∧ ((¬ ∃ x, some x ∈ s.keeper.sessions ∧ x.localIndex = i ∧ x.state.live = true) →
          t.wake.record.noted = s.wake.record.noted) := by
  obtain ⟨hstays, hkeeper, hlost, hnone⟩ := loseSessions_does i (unlisted i s) hserving
  obtain ⟨_, hresponder, hclassifier, hbuilder, hhold, hport, hcounters, _⟩ := loseSessions_keeps i (unlisted i s)
  obtain ⟨_, hresponder', hclassifier', hbuilder', hkeeper', hhold', hport', hcounters', _⟩ :=
    checkArmingEnd_keeps (loseSessions i (unlisted i s))
  have hnoted := checkArmingEnd_noted (loseSessions i (unlisted i s))
  dsimp only
  rw [leaveActive_of_serving hserving]
  refine ⟨⟨hresponder'.trans hresponder, hkeeper'.trans hkeeper⟩, ⟨hport'.trans hport, hcounters'.trans hcounters,
    hhold'.trans hhold, hbuilder'.trans hbuilder, hclassifier'.trans hclassifier⟩, ?_, fun h => hnoted.trans (hlost h),
    fun h => hnoted.trans (hnone h)⟩
  rw [checkArmingEnd_serving, hstays]

/-- In ARMING the item taken off the list may end it (R40). -/
theorem leaveActive_arming {i : Nat} {s u : State} (hst : s.controller.standIn = .arming →
      u.controller.standIn = .arming ∧ u.host = s.host) (htime : u.time = s.time)
    (hdone : u.responder.settledDone = s.responder.settledDone)
    (hrefused : u.responder.settledRefused = s.responder.settledRefused) :
    ArmingAfterRemoval s (leaveActive i u) := by
  intro harming
  obtain ⟨hu, hhost⟩ := hst harming
  obtain ⟨w, k, hlost⟩ := loseSessions_of_not_standing i (s := unlisted i u)
    (show u.controller.standIn ≠ .standing by simp [hu])
  have hremoval := checkArmingEnd_does s (loseSessions i (unlisted i u))
    (by rw [hlost]; exact hu.trans harming.symm) (by rw [hlost]; exact hhost) (by rw [hlost]; exact htime)
    (by rw [hlost]; exact hdone) (by rw [hlost]; exact hrefused) harming
  rw [leaveActive_of_serving (by rw [hu]; rfl)]
  exact hremoval

/-! The frame that announces an entry. -/

/-- The MAC of a LINK entry stands while its address does. -/
theorem linkMac_set {entries : List (Option IdentityEntry)} {i : Nat} {e e' : IdentityEntry}
    (he : lookup entries i = some e) (haddr : e'.addr = e.addr) (x : IdentityEntry) :
    linkMac (entries.set i (some e')) x = linkMac entries x := by
  unfold linkMac
  rw [lookup_set he]
  split_ifs with hlink
  · rw [← hlink, he]
    exact haddr
  · rfl

theorem announcementFrame_set {entries : List (Option IdentityEntry)} {i : Nat} {e e' : IdentityEntry}
    (he : lookup entries i = some e) (haddr : e'.addr = e.addr) (x : IdentityEntry) :
    announcementFrame (entries.set i (some e')) x = announcementFrame entries x := by
  unfold announcementFrame
  rw [linkMac_set he haddr]

/-! A defence. -/

section
variable {s : State} {i : Nat} {e x : IdentityEntry}

/-- The entry after a defence decided now. -/
def defended (x : IdentityEntry) (now : Time) : IdentityEntry := { x with lastDefence := some now }

theorem defendEntry_eq (hn : nothingSuperseded s) (hx : lookup s.responder.entries i = some x) :
    defendEntry i e s =
      if s.port.linkUp = true ∧ e.defence = false ∧ offerResult .announce s ≠ .deferred then
        offerTx .announce (.defence i) (announcementFrame s.responder.entries e)
          (withEntry i (defended x s.time) s)
      else if s.controller.standIn.serving then
        withEntry i { defended x s.time with defence := true } s
      else withEntry i (defended x s.time) s := by
  unfold defendEntry
  dsimp only
  rw [entriesRead_eq s hn, touchEntry_at hn hx, touchEntry_at (by exact hn) (lookup_withEntry hx _), withEntry_withEntry]
  rfl

theorem offerResult_full (hserving : s.controller.standIn.serving = true) (hfull : 8 ≤ s.port.txQueue.length) :
    offerResult .announce s = .deferred := by
  rw [offerResult, if_pos hserving, if_neg (Nat.not_lt.mpr hfull)]

theorem offerResult_dropped (hserving : s.controller.standIn.serving = false) (kind : TxKind) :
    offerResult kind s = .dropped := if_neg (by simp [hserving])

theorem defendEntry_offered (hn : nothingSuperseded s) (hx : lookup s.responder.entries i = some x)
    (hserving : s.controller.standIn.serving = true) (hlink : s.port.linkUp = true) (hnone : e.defence = false)
    (hroom : s.port.txQueue.length < 8) :
    (defendEntry i e s).responder = (withEntry i (defended x s.time) s).responder
      ∧ (defendEntry i e s).port.txQueue =
          s.port.txQueue
            ++ [{ kind := .announce, owner := .defence i, frame := announcementFrame s.responder.entries e }] := by
  have haccepted : offerResult .announce s = .accepted := (accepted_iff s hserving).mpr hroom
  have hoffer : offerResult .announce (withEntry i (defended x s.time) s) = .accepted := haccepted
  rw [defendEntry_eq hn hx, if_pos ⟨hlink, hnone, by rw [haccepted]; simp⟩]
  unfold offerTx
  rw [hoffer]
  exact ⟨rfl, rfl⟩

theorem defendEntry_pending (hn : nothingSuperseded s) (hx : lookup s.responder.entries i = some x)
    (hserving : s.controller.standIn.serving = true)
    (hwaits : s.port.linkUp = false ∨ e.defence = true ∨ 8 ≤ s.port.txQueue.length) :
    defendEntry i e s = withEntry i { defended x s.time with defence := true } s := by
  rw [defendEntry_eq hn hx, if_neg, if_pos hserving]
  rintro ⟨hlink, hnone, hoffer⟩
  rcases hwaits with h | h | h
  · simp [h] at hlink
  · simp [h] at hnone
  · exact hoffer (offerResult_full hserving h)

/-- In a stand-in a defence counts nothing and leaves the announcement list: it is accepted or it waits. -/
theorem defendEntry_stays (hn : nothingSuperseded s) (hx : lookup s.responder.entries i = some x)
    (hserving : s.controller.standIn.serving = true) :
    (defendEntry i e s).counters = s.counters ∧ (defendEntry i e s).responder.list = s.responder.list := by
  rw [defendEntry_eq hn hx]
  split_ifs with hoffers
  · obtain ⟨_, _, hoffer⟩ := hoffers
    have hroom : s.port.txQueue.length < 8 := by
      by_contra hfull
      exact hoffer (offerResult_full hserving (Nat.not_lt.mp hfull))
    have haccepted : offerResult .announce (withEntry i (defended x s.time) s) = .accepted :=
      (accepted_iff (kind := .announce) s hserving).mpr hroom
    unfold offerTx
    rw [haccepted]
    exact ⟨rfl, rfl⟩
  · exact ⟨rfl, rfl⟩

theorem defendEntry_dropped (hn : nothingSuperseded s) (hx : lookup s.responder.entries i = some x)
    (hserving : s.controller.standIn.serving = false) :
    defendEntry i e s =
      { withEntry i (defended x s.time) s with
        counters :=
          if s.port.linkUp = true ∧ e.defence = false then s.counters.add (.dropped .announce) 1 else s.counters } := by
  have hdropped := offerResult_dropped hserving .announce
  rw [defendEntry_eq hn hx]
  by_cases hdrops : s.port.linkUp = true ∧ e.defence = false
  · rw [if_pos ⟨hdrops.1, hdrops.2, by rw [hdropped]; simp⟩, if_pos hdrops]
    unfold offerTx
    rw [show offerResult .announce (withEntry i (defended x s.time) s) = .dropped from hdropped]
    rfl
  · rw [if_neg (fun h => hdrops ⟨h.1, h.2.1⟩), if_neg (by simp [hserving]), if_neg hdrops]
    rfl

/-- A defence leaves all but the entry, the transmit queue and, outside a stand-in, a drop's count. -/
theorem defendEntry_leaves :
    (defendEntry i e s).time = s.time ∧ (defendEntry i e s).controller = s.controller
      ∧ (defendEntry i e s).keeper = s.keeper ∧ (defendEntry i e s).wake = s.wake ∧ (defendEntry i e s).hold = s.hold
      ∧ (defendEntry i e s).builder = s.builder ∧ (defendEntry i e s).classifier = s.classifier := by
  simp

end

/-! A conflict. -/

theorem mayDefend_iff (e : IdentityEntry) (now : Time) :
    e.mayDefend now = true ↔ e.defend = true ∧ ∀ last, e.lastDefence = some last → 10000 ≤ elapsed now last := by
  unfold IdentityEntry.mayDefend
  cases e.lastDefence with
  | none => simp
  | some last => simp

theorem mayDefend_false {e : IdentityEntry} {now : Time}
    (h : e.defend = false ∨ ∃ last, e.lastDefence = some last ∧ elapsed now last < 10000) : e.mayDefend now = false := by
  rw [← Bool.not_eq_true, mayDefend_iff]
  rintro ⟨hdefend, hlast⟩
  rcases h with hnot | ⟨last, hsome, hrecent⟩
  · simp [hnot] at hdefend
  · exact absurd (hlast last hsome) (Nat.not_le.mpr hrecent)

/-- The entry with the conflict counted at it (R38). -/
def conflicted (e : IdentityEntry) : IdentityEntry := { e with conflicts := min 255 (e.conflicts + 1) }

/-- The device with the conflict counted (R38). -/
def conflictCounted (i : Nat) (e : IdentityEntry) (s : State) : State :=
  { withEntry i (conflicted e) s with counters := s.counters.add .conflicts 1 }

/-- The report of a conflict (R38). -/
def conflictReport (i : Nat) (f : List Byte) : Report := { cause := .conflict, origin := some i, frame := some f }

section
variable {s : State} {i : Nat} {e : IdentityEntry} {f : List Byte}

theorem takeConflict_eq (hn : nothingSuperseded s) (he : lookup s.responder.entries i = some e) :
    takeConflict i e f s =
      settle .discarded
        (if e.mayDefend s.time then defendEntry i e (reportCause (conflictReport i f) (conflictCounted i e s))
        else cedeEntry i (reportCause (conflictReport i f) (conflictCounted i e s))) := by
  unfold takeConflict
  dsimp only
  rw [touchEntry_at hn he]
  rfl

theorem cedeEntry_at (hn : nothingSuperseded s) (he : lookup s.responder.entries i = some e) :
    cedeEntry i s = leaveActive i (withEntry i (e.leave .ceded) s) := by
  rw [cedeEntry_eq i s hn, modifyEntry, modifyAt_eq_set he]
  rfl

/-- The state after the conflict is counted and noted. -/
theorem conflictReported (hn : nothingSuperseded s) (he : lookup s.responder.entries i = some e) :
    let u := reportCause (conflictReport i f) (conflictCounted i e s)
    nothingSuperseded u ∧ lookup u.responder.entries i = some (conflicted e)
      ∧ u.responder = { s.responder with entries := s.responder.entries.set i (some (conflicted e)) }
      ∧ (u.time = s.time ∧ u.classifier = s.classifier ∧ u.builder = s.builder ∧ u.keeper = s.keeper ∧ u.hold = s.hold
        ∧ u.port = s.port)
      ∧ u.counters = s.counters.add .conflicts 1 := by
  obtain ⟨htime, hresponder, hclassifier, hbuilder, hkeeper, hhold, hport, hcounters, _⟩ :=
    reportCause_keeps (conflictReport i f) (conflictCounted i e s)
  dsimp only
  refine ⟨nothingSuperseded_of_current (congrArg Classifier.current hclassifier) hn, ?_, hresponder,
    ⟨htime, hclassifier, hbuilder, hkeeper, hhold, hport⟩, hcounters⟩
  rw [hresponder]
  exact lookup_withEntry he (conflicted e)

end

theorem takeArp_conflict {s : State} {f : List Byte} (hok : arpOk (layerData f) = true) {p : Nat × IdentityEntry}
    (hconflict : arpConflict (entriesRead s) f = some p) : takeArp f s = takeConflict p.1 p.2 f s := by
  rw [takeArp, if_pos hok, hconflict]

theorem takeAdvertisement_conflict {s : State} {f : List Byte} {ip : IpFields} (hok : neighbourOk ip = true)
    {p : Nat × IdentityEntry} (hconflict : advertConflict (entriesRead s) f ip = some p) :
    takeAdvertisement f ip s = takeConflict p.1 p.2 f s := by
  rw [takeAdvertisement, if_pos hok, hconflict]

/-- An entry written over one just written. -/
theorem withEntry_over {s u : State} {i : Nat} {x : IdentityEntry} (h : u.responder =
      { s.responder with entries := s.responder.entries.set i (some x) }) (y : IdentityEntry) :
    (withEntry i y u).responder = { s.responder with entries := s.responder.entries.set i (some y) } := by
  rw [withEntry, h]
  exact congrArg (fun l => ({ s.responder with entries := l } : Responder)) (List.set_set ..)

/-- What a step in a stand-in leaves when it only settles the frame. -/
theorem settle_stays {s : State} (h : s.controller.standIn.serving = true) (d : Disposition) :
    settle d s = { s with
      classifier := { s.classifier with current := none }, counters := s.counters.add (.settled d) 1 } :=
  settle_serving d s h

/-! A conflict in a stand-in. -/

/-- The state after the conflict is counted and noted in a stand-in. -/
structure ConflictNoted (s : State) (i : Nat) (e : IdentityEntry) (u : State) : Prop where
  unsuperseded : nothingSuperseded u
  entry : lookup u.responder.entries i = some (conflicted e)
  responder : u.responder = { s.responder with entries := s.responder.entries.set i (some (conflicted e)) }
  time : u.time = s.time
  classifier : u.classifier = s.classifier
  builder : u.builder = s.builder
  keeper : u.keeper = s.keeper
  hold : u.hold = s.hold
  port : u.port = s.port
  counters : u.counters = s.counters.add .conflicts 1
  serving : u.controller.standIn.serving = true
  noted : u.wake.record.noted = s.wake.record.noted.join .conflict
  arming : s.controller.standIn = .arming → u.controller.standIn = .arming ∧ u.host = s.host

/-- What every answer to a conflict in a stand-in leaves. -/
def ConflictDiscarded (s t : State) : Prop :=
  t.counters = (s.counters.add .conflicts 1).add (.settled .discarded) 1
    ∧ t.wake.record.noted.has .conflict = true ∧ t.classifier = { s.classifier with current := none }
    ∧ t.hold = s.hold ∧ t.builder = s.builder

section
variable {s u : State} {i : Nat} {e : IdentityEntry}

theorem conflictNoted (f : List Byte) (hn : nothingSuperseded s) (he : lookup s.responder.entries i = some e)
    (hserving : s.controller.standIn.serving = true) :
    ConflictNoted s i e (reportCause (conflictReport i f) (conflictCounted i e s)) := by
  obtain ⟨hu, heu, hresponder, ⟨htime, hclassifier, hbuilder, hkeeper, hhold, hport⟩, hcounters⟩ :=
    conflictReported (f := f) hn he
  refine ⟨hu, heu, hresponder, htime, hclassifier, hbuilder, hkeeper, hhold, hport, hcounters,
    reportCause_serving _ (conflictCounted i e s) hserving, reportCause_noted _ (conflictCounted i e s) hserving,
    fun hst => ?_⟩
  obtain ⟨w, hw⟩ := reportCause_of_not_standing (conflictReport i f) (s := conflictCounted i e s)
    (show s.controller.standIn ≠ .standing by simp [hst])
  rw [hw]
  exact ⟨hst, rfl⟩

/-- The frame settled after an answer that changes neither the counters, the hold buffer, the builder nor the classifier,
and forgets no cause. -/
theorem ConflictNoted.discarded (h : ConflictNoted s i e u) {v : State} (hserving : v.controller.standIn.serving = true)
    (hcounters : v.counters = u.counters) (hnoted : v.wake.record.noted.has .conflict = true)
    (hclassifier : v.classifier = u.classifier) (hhold : v.hold = u.hold) (hbuilder : v.builder = u.builder) :
    ConflictDiscarded s (settle .discarded v) := by
  rw [settle_stays hserving]
  exact ⟨congrArg (fun k : Counters => k.add (.settled .discarded) 1) (hcounters.trans h.counters), hnoted,
    congrArg (fun k : Classifier => { k with current := none }) (hclassifier.trans h.classifier), hhold.trans h.hold,
    hbuilder.trans h.builder⟩

theorem ConflictNoted.has_conflict (h : ConflictNoted s i e u) : u.wake.record.noted.has .conflict = true := by
  rw [h.noted]
  exact join_has _ .conflict

theorem ConflictNoted.defended_list (h : ConflictNoted s i e u) :
    (defendEntry i e u).responder.list = s.responder.list := by
  obtain ⟨_, hlist⟩ := defendEntry_stays (e := e) h.unsuperseded h.entry h.serving
  rw [hlist, h.responder]

/-- A defence leaves the keeper, the announcement list and the causes noted. -/
theorem ConflictNoted.defended_leaves (h : ConflictNoted s i e u) :
    ConflictDiscarded s (settle .discarded (defendEntry i e u))
      ∧ (settle .discarded (defendEntry i e u)).keeper = s.keeper
      ∧ (settle .discarded (defendEntry i e u)).responder = (defendEntry i e u).responder
      ∧ (settle .discarded (defendEntry i e u)).wake.record.noted = s.wake.record.noted.join .conflict
      ∧ (settle .discarded (defendEntry i e u)).port = (defendEntry i e u).port := by
  obtain ⟨_, hcontroller, hkeeper, hwake, hhold, hbuilder, hclassifier⟩ := defendEntry_leaves (s := u) (i := i) (e := e)
  have hserving : (defendEntry i e u).controller.standIn.serving = true := by rw [hcontroller]; exact h.serving
  obtain ⟨hcounters, _⟩ := defendEntry_stays (e := e) h.unsuperseded h.entry h.serving
  refine ⟨h.discarded hserving hcounters (by rw [hwake]; exact h.has_conflict) hclassifier hhold hbuilder, ?_⟩
  rw [settle_stays hserving]
  exact ⟨hkeeper.trans h.keeper, rfl, by rw [hwake]; exact h.noted, rfl⟩

theorem ConflictNoted.defended_offered (h : ConflictNoted s i e u) (he : lookup s.responder.entries i = some e)
    (hlink : s.port.linkUp = true) (hnone : e.defence = false) (hroom : s.port.txQueue.length < 8) :
    (defendEntry i e u).responder =
        { s.responder with entries := s.responder.entries.set i (some (defended (conflicted e) s.time)) }
      ∧ (defendEntry i e u).port.txQueue =
          s.port.txQueue
            ++ [{ kind := .announce, owner := .defence i, frame := announcementFrame s.responder.entries e }] := by
  obtain ⟨hentries, hqueue⟩ := defendEntry_offered (e := e) h.unsuperseded h.entry h.serving
    (by rw [h.port]; exact hlink) hnone (by rw [h.port]; exact hroom)
  have hframe : announcementFrame u.responder.entries e = announcementFrame s.responder.entries e := by
    rw [h.responder]
    exact announcementFrame_set (e' := conflicted e) he rfl e
  rw [hframe, h.port] at hqueue
  rw [withEntry_over h.responder, h.time] at hentries
  exact ⟨hentries, hqueue⟩

theorem ConflictNoted.defended_pending (h : ConflictNoted s i e u)
    (hwaits : s.port.linkUp = false ∨ e.defence = true ∨ 8 ≤ s.port.txQueue.length) :
    (defendEntry i e u).responder =
        { s.responder with
          entries := s.responder.entries.set i (some { defended (conflicted e) s.time with defence := true }) }
      ∧ (defendEntry i e u).port = s.port := by
  have hpending := defendEntry_pending (e := e) h.unsuperseded h.entry h.serving (by rw [h.port]; exact hwaits)
  have hentries := withEntry_over h.responder { defended (conflicted e) u.time with defence := true }
  rw [hpending]
  exact ⟨by rw [hentries, h.time], h.port⟩

/-- The entry is CEDED and leaves ACTIVE. -/
theorem ConflictNoted.ceded (h : ConflictNoted s i e u) {v : State} (hv : v = settle .discarded (cedeEntry i u)) :
    ConflictDiscarded s v
      ∧ v.responder =
          { s.responder with
            entries := s.responder.entries.set i (some ((conflicted e).leave .ceded))
            list := s.responder.list.filter (fun j => j != i) }
      ∧ v.port = s.port ∧ v.keeper = { s.keeper with sessions := lostWith i s.keeper.sessions }
      ∧ ((∃ x, some x ∈ s.keeper.sessions ∧ x.localIndex = i ∧ x.state.live = true) →
          v.wake.record.noted.has .sessionLost = true)
      ∧ ArmingAfterRemoval s v := by
  have hentries := withEntry_over h.responder ((conflicted e).leave .ceded)
  obtain ⟨⟨hresponder, hkeeper⟩, ⟨hport, hcounters, hhold, hbuilder, hclassifier⟩, hserving, hlost, hnone⟩ :=
    leaveActive_does (i := i) (s := withEntry i ((conflicted e).leave .ceded) u) h.serving
  have hremoval : ArmingAfterRemoval s (leaveActive i (withEntry i ((conflicted e).leave .ceded) u)) :=
    leaveActive_arming h.arming h.time (by rw [hentries]) (by rw [hentries])
  have hnoted : (leaveActive i (withEntry i ((conflicted e).leave .ceded) u)).wake.record.noted.has .conflict = true := by
    by_cases hlive : ∃ x, some x ∈ u.keeper.sessions ∧ x.localIndex = i ∧ x.state.live = true
    · rw [hlost hlive]
      exact has_of_has_join _ _ _ h.has_conflict
    · rw [hnone hlive]
      exact h.has_conflict
  have hdiscarded := h.discarded hserving hcounters hnoted hclassifier hhold hbuilder
  rw [hv, cedeEntry_at h.unsuperseded h.entry]
  refine ⟨hdiscarded, ?_⟩
  rw [settle_stays hserving, ← h.keeper]
  refine ⟨?_, hport.trans h.port, hkeeper, fun hlive => ?_, hremoval⟩
  · rw [hresponder, unlisted, hentries]
  · exact (congrArg (CauseSet.has · .sessionLost) (hlost hlive)).trans (join_has _ .sessionLost)

end

/-! A conflict of a frame carried over. -/

section
variable {s : State} {i : Nat} {e : IdentityEntry} {f : List Byte}

theorem takeConflict_carried_defended (hn : nothingSuperseded s) (he : lookup s.responder.entries i = some e)
    (hserving : s.controller.standIn.serving = false) (hmay : e.mayDefend s.time = true) :
    takeConflict i e f s =
      checkDrained
        (settled .discarded
          { s with
            responder :=
              { s.responder with entries := s.responder.entries.set i (some (defended (conflicted e) s.time)) }
            counters :=
              if s.port.linkUp = true ∧ e.defence = false then
                (s.counters.add .conflicts 1).add (.dropped .announce) 1
              else s.counters.add .conflicts 1 }) := by
  have hdropped := defendEntry_dropped (s := conflictCounted i e s) (e := e) hn (lookup_withEntry he (conflicted e))
    hserving
  have hentries := withEntry_over (s := s) (u := conflictCounted i e s) rfl (defended (conflicted e) s.time)
  rw [takeConflict_eq hn he, reportCause_carried _ _ (by exact hserving), if_pos hmay, hdropped, settle_eq]
  exact congrArg (fun r : Responder =>
    checkDrained
      (settled .discarded
        { s with
          responder := r
          counters :=
            if s.port.linkUp = true ∧ e.defence = false then (s.counters.add .conflicts 1).add (.dropped .announce) 1
            else s.counters.add .conflicts 1 })) hentries

theorem takeConflict_carried_ceded (hn : nothingSuperseded s) (he : lookup s.responder.entries i = some e)
    (hserving : s.controller.standIn.serving = false) (hnot : e.mayDefend s.time = false) :
    takeConflict i e f s =
      checkDrained
        (settled .discarded
          { s with
            responder :=
              { s.responder with
                entries := s.responder.entries.set i (some ((conflicted e).leave .ceded))
                list := s.responder.list.filter (fun j => j != i) }
            counters := s.counters.add .conflicts 1 }) := by
  have hceded := cedeEntry_at (s := conflictCounted i e s) hn (lookup_withEntry he (conflicted e))
  have hentries := withEntry_over (s := s) (u := conflictCounted i e s) rfl ((conflicted e).leave .ceded)
  rw [takeConflict_eq hn he, reportCause_carried _ _ (by exact hserving), hnot, if_neg Bool.false_ne_true, hceded,
    leaveActive_of_not_serving (by exact hserving), settle_eq]
  exact congrArg (fun r : Responder =>
    checkDrained
      (settled .discarded
        { s with
          responder := { r with list := s.responder.list.filter (fun j => j != i) }
          counters := s.counters.add .conflicts 1 })) hentries

end

/-- The conflict's entry stands in the table, and the dispatch is the conflict's handling. -/
theorem exec_conflict {s : State} {c : Classification} {i : Nat} {e : IdentityEntry}
    (hc : s.classifier.current = some c) (hk : c.step = .responder)
    (hconflict :
      (responderKind c.frame = some .arp ∧ arpOk (layerData c.frame) = true
          ∧ arpConflict (entriesRead s) c.frame = some (i, e))
        ∨ ∃ ip, responderKind c.frame = some .advertisement ∧ readIp c.frame = some ip ∧ neighbourOk ip = true
            ∧ advertConflict (entriesRead s) c.frame ip = some (i, e))
    (hn : nothingSuperseded s) :
    lookup s.responder.entries i = some e ∧ exec .responderDispatch s = .next (takeConflict i e c.frame s) := by
  have hread := entriesRead_eq s hn
  rcases hconflict with ⟨hkind, hok, hmatch⟩ | ⟨ip, hkind, hip, hok, hmatch⟩
  · refine ⟨lookup_of_arpConflict (by rw [← hread]; exact hmatch), ?_⟩
    rw [exec_responder hc hk hkind, takeResponderFrame_arp, takeArp_conflict hok hmatch]
  · refine ⟨lookup_of_advertConflict (by rw [← hread]; exact hmatch), ?_⟩
    rw [exec_responder hc hk hkind, takeResponderFrame_advertisement hip, takeAdvertisement_conflict hok hmatch]

/-- Settles O54: the conflict counted and noted, then the entry defended or ceded. -/
theorem conflictsDefendedOrCeded : Obligations.ConflictsDefendedOrCeded := by
  intro s c i e hc hk hconflict hn may mayNot defending ceding
  obtain ⟨he, hexec⟩ := exec_conflict hc hk hconflict hn
  have htaken := takeConflict_eq (f := c.frame) hn he
  have hdefends : may → e.mayDefend s.time = true := (mayDefend_iff e s.time).mpr
  have hcedes : mayNot → e.mayDefend s.time = false := mayDefend_false
  refine ⟨fun hserving => ⟨_, hexec, ?_⟩, fun hserving => ⟨fun hmay => ?_, fun hnot => ?_⟩⟩
  · have hu := conflictNoted c.frame hn he hserving
    generalize reportCause (conflictReport i c.frame) (conflictCounted i e s) = u at htaken hu
    rw [htaken]
    by_cases hmay : e.mayDefend s.time = true
    · have hnotMay : ¬ mayNot := fun h => by simp [hcedes h] at hmay
      obtain ⟨⟨hcounters, hconflict, hclassifier, hhold, hbuilder⟩, hkeeper, hresponder, hnoted, hport⟩ :=
        hu.defended_leaves
      rw [if_pos hmay, hresponder, hport]
      refine ⟨hcounters, hconflict, hclassifier, hhold, hbuilder, fun _ => ⟨hkeeper, ?_, hnoted,
        fun hlink hnone hroom => ?_, fun hwaits => ?_⟩, fun h => absurd h hnotMay⟩
      · exact hu.defended_list
      · obtain ⟨hentries, hqueue⟩ := hu.defended_offered he hlink hnone hroom
        exact ⟨congrArg Responder.entries hentries, hqueue⟩
      · obtain ⟨hentries, hstays⟩ := hu.defended_pending hwaits
        exact ⟨congrArg Responder.entries hentries, hstays⟩
    · obtain ⟨⟨hcounters, hconflict, hclassifier, hhold, hbuilder⟩, hresponder, hport, hkeeper, hlost, harming⟩ :=
        hu.ceded rfl
      rw [if_neg hmay]
      exact ⟨hcounters, hconflict, hclassifier, hhold, hbuilder, fun h => absurd (hdefends h) hmay, fun _ =>
        ⟨congrArg Responder.entries hresponder, congrArg Responder.list hresponder, hport, hkeeper, hlost, harming⟩⟩
  · rw [hexec, takeConflict_carried_defended hn he hserving (hdefends hmay)]
    rfl
  · rw [hexec, takeConflict_carried_ceded hn he hserving (hcedes hnot)]
    rfl

end Sys2Proof.Proofs
end

section
/-! PROOFS. Membership queries (O55). -/

namespace Sys2Proof.Proofs

open Sys2Proof Sys2Proof.Machine

/-- Each entry that a query concerns given its deadline (R44). -/
def scheduled (now : Time) (form : ReportForm) (q : List (Nat × Nat)) (s : State) : State :=
  q.foldl (fun s p => touchEntry p.1 (fun e => e.schedule now p.2 form) s) s

theorem scheduled_keeps (now : Time) (form : ReportForm) (q : List (Nat × Nat)) (s : State) :
    scheduled now form q s = { s with responder := (scheduled now form q s).responder } := by
  induction q generalizing s with
  | nil => rfl
  | cons p q ih =>
    have hone : touchEntry p.1 (fun e => e.schedule now p.2 form) s =
        { s with responder := (touchEntry p.1 (fun e => e.schedule now p.2 form) s).responder } := by
      unfold touchEntry
      split <;> rfl
    have hrest := ih (touchEntry p.1 (fun e => e.schedule now p.2 form) s)
    rw [hone] at hrest
    rw [show scheduled now form (p :: q) s =
      scheduled now form q (touchEntry p.1 (fun e => e.schedule now p.2 form) s) from rfl, hone]
    exact hrest

/-- The deadlines start at the moment of the query. -/
theorem foldl_schedule (form : ReportForm) (q : List (Nat × Nat)) (s : State) :
    q.foldl (fun s p => touchEntry p.1 (fun e => e.schedule s.time p.2 form) s) s = scheduled s.time form q s := by
  suffices hall : ∀ u : State, u.time = s.time →
      q.foldl (fun s p => touchEntry p.1 (fun e => e.schedule s.time p.2 form) s) u = scheduled s.time form q u from
    hall s rfl
  induction q with
  | nil => exact fun _ _ => rfl
  | cons p q ih =>
    intro u hu
    rw [List.foldl_cons, ih _ ((touchEntry_keeps _ _ _).1.trans hu), hu]
    rfl

theorem takeQuery_of_serving {s : State} (h : s.controller.standIn.serving = true) (kind : EntryKind) (vlan : Nat)
    (group : Addr) (t : Nat) (form : ReportForm) :
    takeQuery kind vlan group t form s =
      settled .absorbed (scheduled s.time form (queriedEntries (entriesRead s) kind vlan group t) s) := by
  rw [takeQuery, if_pos h, foldl_schedule, settle_serving]
  rw [scheduled_keeps]
  exact h

theorem takeQuery_of_not_serving {s : State} (h : s.controller.standIn.serving = false) (kind : EntryKind) (vlan : Nat)
    (group : Addr) (t : Nat) (form : ReportForm) : takeQuery kind vlan group t form s = settle .absorbed s :=
  if_neg (by simp [h])

/-- An entry given a deadline (R44): where it has one, the earlier stands. -/
theorem schedule_cases (e : IdentityEntry) (now : Time) (d : Nat) (form : ReportForm) :
    let new : IdentityEntry := { e with report := some { start := now, length := d, form := form, due := false } }
    (e.report = none → e.schedule now d form = new)
      ∧ (∀ r, e.report = some r → r.due = false → d < r.length - elapsed now r.start → e.schedule now d form = new)
      ∧ (∀ r, e.report = some r → (r.due = true ∨ r.length - elapsed now r.start ≤ d) → e.schedule now d form = e) := by
  refine ⟨fun hnone => ?_, fun r hr hdue hearlier => ?_, fun r hr hstands => ?_⟩
  · rw [IdentityEntry.schedule, hnone]
  · rw [IdentityEntry.schedule, hr]
    simp [hdue, hearlier]
  · rw [IdentityEntry.schedule, hr]
    rcases hstands with hdue | hlater
    · simp [hdue]
    · simp [Nat.not_lt.mpr hlater]

/-- Settles O55: the query's check, then the deadlines of the entries that it concerns. -/
theorem queriesScheduleReports : Obligations.QueriesScheduleReports := by
  intro s c ip kind good q form hc hk hkind hip hquery
  obtain ⟨entryKind, vlan, group, t, hq, hexec⟩ : ∃ entryKind vlan group t,
      q = queriedEntries (entriesRead s) entryKind vlan group t
        ∧ exec .responderDispatch s =
          .next (if good then takeQuery entryKind vlan group t form s else settle .discarded s) := by
    rcases hquery with ⟨rfl, rfl, hq, rfl⟩ | ⟨rfl, rfl, hq, rfl⟩
    · refine ⟨_, _, _, _, hq, ?_⟩
      rw [exec_responder hc hk hkind]
      unfold takeResponderFrame
      rw [hip]
      rfl
    · refine ⟨_, _, _, _, hq, ?_⟩
      rw [exec_responder hc hk hkind]
      unfold takeResponderFrame
      rw [hip]
      rfl
  refine ⟨fun hgood hserving => ?_, fun hgood hserving => ?_, fun hbad => ?_⟩
  · rw [if_pos hgood, takeQuery_of_serving hserving, ← hq] at hexec
    have hnodup : (q.map (·.1)).Nodup := by
      rw [hq]
      exact queriedEntries_nodup _ _ _ _ _
    obtain ⟨hgiven, hother⟩ := scheduleAll s.time form q hnodup s
    have hkeeps := scheduled_keeps s.time form q s
    refine ⟨_, hexec, ?_, rfl, ?_, ?_, ?_, ?_, fun i d e hmem hedited he => ?_, hother⟩
    · rw [settled, hkeeps]
    · rw [settled, hkeeps]
    · rw [settled, hkeeps]
    · rw [settled, hkeeps]
    · rw [settled, hkeeps]
    · have hentry : lookup (settled .absorbed (scheduled s.time form q s)).responder.entries i =
          some (e.schedule s.time d form) := hgiven i d hmem hedited e he
      obtain ⟨hfresh, hearlier, hstands⟩ := schedule_cases e s.time d form
      exact ⟨fun hnone => hentry.trans (congrArg some (hfresh hnone)),
        fun r hr hdue hlt => hentry.trans (congrArg some (hearlier r hr hdue hlt)),
        fun r hr h => hentry.trans (congrArg some (hstands r hr h))⟩
  · rw [hexec, if_pos hgood, takeQuery_of_not_serving hserving, settle_eq]
  · rw [hexec, if_neg (by simp [hbad]), settle_eq]

end Sys2Proof.Proofs
end

section
/-! PROOFS. The rules and the default action (O56, O57). -/

namespace Sys2Proof.Proofs

open Sys2Proof Sys2Proof.Machine

/-! A rule that matches. -/

/-- The device with a rule's hit counted (R73). -/
def ruleHit (n : Nat) (s : State) : State :=
  { s with
    classifier :=
      { s.classifier with rules := s.classifier.rules.modify n (fun r => { r with hits := r.hits + 1 }) } }

/-- The device with a rule's overflow counted (R73). -/
def ruleOverflowed (n : Nat) (s : State) : State :=
  { s with
    classifier :=
      { s.classifier with
        rules := s.classifier.rules.modify n (fun r => { r with overflows := min 4294967295 (r.overflows + 1) }) } }

section
variable {s : State} {c : Classification} {r : Rule} {n : Nat} {f : List Byte}

theorem exec_rule (hc : s.classifier.current = some c) (hk : c.step = .rule) (hn : nothingSuperseded s)
    {place : Option Nat} (hmatch : firstMatch s.responder.entries (rulesRead s) c.frame = some ((r, place), n)) :
    exec .ruleMatch s = .next (runRule r place n c.frame s) := by
  refine (exec_step (k := .rule) hc hk).trans (congrArg Host.Outcome.next ?_)
  rw [classStep, stepRule, entriesRead_eq s hn, hmatch]

theorem runRule_within (hbudget : r.hits < r.limit) : runRule r (some n) n f s = runAction r.action n f (ruleHit n s) :=
  if_pos hbudget

theorem runRule_beyond (hbudget : r.limit ≤ r.hits) :
    runRule r (some n) n f s = runAction r.overflow.action n f (ruleOverflowed n s) := if_neg (Nat.not_lt.mpr hbudget)

/-- A rule's action, within the budget or beyond it. -/
theorem runRule_cases {action : RuleAction} {overflow : OverflowAction} (hover : overflow.action = action) {u : State}
    (h : (r.hits < r.limit ∧ r.action = action ∧ u = ruleHit n s)
      ∨ (r.limit ≤ r.hits ∧ r.overflow = overflow ∧ u = ruleOverflowed n s)) :
    runRule r (some n) n f s = runAction action n f u ∧ u.controller = s.controller := by
  rcases h with ⟨hbudget, rfl, rfl⟩ | ⟨hbudget, rfl, rfl⟩
  · exact ⟨runRule_within hbudget, rfl⟩
  · exact ⟨(runRule_beyond hbudget).trans (by rw [hover]), rfl⟩

/-! The actions. -/

theorem runAction_discard : runAction .discard n f s = checkDrained (settled .discarded s) := rfl

theorem runAction_wake_serving (hserving : s.controller.standIn.serving = true) :
    runAction .wake n f s = reportCause (ruleReport n f) (settled .discarded s) := by
  rw [runAction, settle_serving _ _ (reportCause_serving _ _ hserving), reportCause_settled]

theorem runAction_wake_carried (hserving : s.controller.standIn.serving = false) :
    runAction .wake n f s = checkDrained (settled .discarded s) := by
  rw [runAction, reportCause_carried _ _ hserving, settle_eq]

theorem runAction_hold (hn : nothingSuperseded s) :
    HoldSettles f (.rule n) false none (fun _ => s) (runAction .hold n f s) := holdFor_settles (.rule n) none f s hn

theorem runAction_holdWake (hn : nothingSuperseded s) :
    HoldSettles f (.rule n) false (some (ruleReport n f)) (fun _ => s) (runAction .holdWake n f s) :=
  holdFor_settles (.rule n) (some (ruleReport n f)) f s hn

theorem offerAnswer_eq (answer : List Byte) :
    offerAnswer answer s = checkDrained (settled .answered (offered .answer answer s)) := by
  rw [offerAnswer, offerTx_eq_offered _ _ _ (.inl rfl), settle_eq]

theorem runEcho_answered (hn : nothingSuperseded s) {ip : IpFields}
    (hecho : echoFields s.responder.entries f = some ip) :
    runEcho f s =
      checkDrained (settled .answered
        (offered .answer (echoReply f ip (frameLinkMac s.responder.entries f)) s)) := by
  rw [runEcho, entriesRead_eq s hn, hecho]
  exact offerAnswer_eq _

theorem runEcho_discarded (hn : nothingSuperseded s) (hecho : echoFields s.responder.entries f = none) :
    runEcho f s = checkDrained (settled .discarded s) := by
  rw [runEcho, entriesRead_eq s hn, hecho]
  rfl

/-- The device with one template of the store written. -/
def withTemplate (k : Nat) (x : Template) (s : State) : State :=
  { s with builder := { templates := s.builder.templates.set k (some x) } }

theorem touchTemplate_at (hn : nothingSuperseded s) {k : Nat} {x : Template}
    (hx : lookup s.builder.templates k = some x) (g : Template → Template) :
    touchTemplate k g s = withTemplate k (g x) s := by
  rw [touchTemplate_eq k g s hn, modifyAt_eq_set hx]
  rfl

theorem runTemplate_built (hn : nothingSuperseded s) {k : Nat} {x : Template} {answer : List Byte}
    (hx : lookup s.builder.templates k = some x)
    (hbuilt : buildTemplate x f (frameLinkMac s.responder.entries f) = some answer) :
    runTemplate k f s =
      checkDrained (settled .answered
        (offered .answer answer (withTemplate k { x with built := min 4294967295 (x.built + 1) } s))) := by
  rw [runTemplate, templatesRead_eq s hn, hx]
  dsimp only
  rw [entriesRead_eq s hn, hbuilt]
  dsimp only
  rw [touchTemplate_at hn hx, offerAnswer_eq]
  rfl

theorem runTemplate_failed (hn : nothingSuperseded s) {k : Nat} {x : Template}
    (hx : lookup s.builder.templates k = some x)
    (hfailed : buildTemplate x f (frameLinkMac s.responder.entries f) = none) :
    runTemplate k f s =
      checkDrained (settled .discarded
        { withTemplate k { x with failed := min 4294967295 (x.failed + 1) } s with
          counters := s.counters.add .templateShort 1 }) := by
  rw [runTemplate, templatesRead_eq s hn, hx]
  dsimp only
  rw [entriesRead_eq s hn, hfailed]
  dsimp only
  rw [touchTemplate_at hn hx, settle_eq]
  rfl

end

/-- Settles O56: the first rule that matches and its budget, or the default action. -/
theorem rulesAndDefaultSettleFrames : Obligations.RulesAndDefaultSettleFrames := by
  intro s c hc hn
  have hpolicy := policyRead_eq s hn
  refine ⟨fun hk hmatch => ?_, fun r n hk hmatch => ?_, fun hk haction => ?_, fun hk haction => ?_⟩
  · refine exec_step_advance (k := .rule) hc hk ?_
    rw [classStep, stepRule, entriesRead_eq s hn, hmatch]
  · have hexec := exec_rule hc hk hn hmatch
    refine ⟨fun u hu => ?_, fun u hu => ?_, fun hbudget hover => ?_⟩
    · obtain ⟨hruns, _⟩ := runRule_cases (action := .discard) (overflow := .discard) (f := c.frame) rfl hu
      rw [hexec, hruns, runAction_discard]
    · obtain ⟨hruns, hcontroller⟩ := runRule_cases (action := .wake) (overflow := .wake) (f := c.frame) rfl hu
      refine ⟨fun hserving => ?_, fun hserving => ?_⟩
      · rw [hexec, hruns, runAction_wake_serving (by rw [hcontroller]; exact hserving)]
        rfl
      · rw [hexec, hruns, runAction_wake_carried (by rw [hcontroller]; exact hserving)]
    · refine ⟨_, hexec, ?_⟩
      rw [runRule_beyond hbudget, hover]
      exact runAction_hold (s := ruleOverflowed n s) hn
  · refine (exec_step (k := .default) hc hk).trans (congrArg Host.Outcome.next ?_)
    rw [classStep, stepDefault, hpolicy, haction, settle_eq]
  · refine ⟨_, exec_step (k := .default) hc hk, ?_⟩
    rw [classStep, stepDefault, hpolicy, haction]
    exact holdFor_settles .byDefault none c.frame s hn

/-- Settles O57: the actions of a rule within its budget. -/
theorem ruleActionsHoldAndAnswer : Obligations.RuleActionsHoldAndAnswer := by
  intro s c r n hc hk hn hmatch hbudget mac hit
  have hexec : exec .ruleMatch s = .next (runAction r.action n c.frame (ruleHit n s)) := by
    rw [exec_rule hc hk hn hmatch, runRule_within hbudget]
  have hn' : nothingSuperseded (ruleHit n s) := hn
  refine ⟨fun haction => ⟨_, hexec, ?_⟩, fun haction => ⟨_, hexec, ?_⟩, fun ip haction hecho => ?_,
    fun haction hecho => ?_, fun k x a haction hx hbuilt => ?_, fun k x haction hx hfailed => ?_⟩
  · rw [haction]
    exact runAction_hold hn'
  · rw [haction]
    exact runAction_holdWake hn'
  · rw [hexec, haction]
    exact congrArg Host.Outcome.next (runEcho_answered hn' hecho)
  · rw [hexec, haction]
    exact congrArg Host.Outcome.next (runEcho_discarded hn' hecho)
  · rw [hexec, haction]
    exact congrArg Host.Outcome.next (runTemplate_built (s := ruleHit n s) hn' hx hbuilt)
  · rw [hexec, haction]
    exact congrArg Host.Outcome.next (runTemplate_failed (s := ruleHit n s) hn' hx hfailed)

end Sys2Proof.Proofs
end

section
/-! PROOFS. Periods, leases, reports and probes (O58, O59). -/

namespace Sys2Proof.Proofs

open Sys2Proof Sys2Proof.Machine

/-! Leases. -/

section
variable {s : State} {i : Nat} {e : IdentityEntry}

theorem takeMargin_ready (he : lookup s.responder.entries i = some e) (hserving : s.controller.standIn.serving = true)
    (haddress : e.isAddress = true) (hmark : e.leaseMark = false)
    (hreached : e.marginReached s.time s.wake.policy.leaseMargin = true) :
    takeMargin i s =
      reportCause { cause := .lease, origin := some i, frame := none } (withEntry i { e with leaseMark := true } s) := by
  have hready : marginReady e s = true := by simp [marginReady, hserving, haddress, hmark, hreached]
  rw [takeMargin, he]
  dsimp only
  rw [if_pos hready, reportLease, modifyEntry, modifyAt_eq_set he]
  rfl

theorem takeLeaseDeadline_ready (he : lookup s.responder.entries i = some e) (haddress : e.isAddress = true)
    (hstate : e.state ≠ .expired) (hpassed : e.deadlinePassed s.time = true) :
    takeLeaseDeadline i s =
      if e.state = .active then leaveActive i (withEntry i (e.leave .expired) s)
      else withEntry i (e.leave .expired) s := by
  have hready : leaseReady e s = true := by simp [leaseReady, haddress, hstate, hpassed]
  rw [takeLeaseDeadline, he]
  dsimp only
  rw [if_pos hready, expireEntry, modifyEntry, modifyAt_eq_set he]
  rfl

/-- The entry of a passed lease deadline is EXPIRED; one that was ACTIVE leaves ACTIVE by it. -/
def LeaseExpired (s : State) (i : Nat) (e : IdentityEntry) (t : State) : Prop :=
  t.responder.entries = s.responder.entries.set i (some { e with state := .expired, defence := false })
    ∧ t.port = s.port ∧ t.hold = s.hold ∧ t.counters = s.counters ∧ t.classifier = s.classifier
    ∧ t.builder = s.builder
    ∧ (e.state = .active → t.responder.list = s.responder.list.filter (fun j => j != i))
    ∧ ((e.state = .ceded ∨ s.controller.standIn.serving = false) →
        t.keeper = s.keeper ∧ t.wake = s.wake ∧ t.controller = s.controller ∧ t.host = s.host)
    ∧ (e.state = .ceded → t.responder.list = s.responder.list)
    ∧ (s.controller.standIn.serving = true → e.state = .active →
        t.keeper = { s.keeper with sessions := lostWith i s.keeper.sessions }
          ∧ ((∃ x, some x ∈ s.keeper.sessions ∧ x.localIndex = i ∧ x.state.live = true) →
              t.wake.record.noted = s.wake.record.noted.join .sessionLost)
          ∧ ((¬ ∃ x, some x ∈ s.keeper.sessions ∧ x.localIndex = i ∧ x.state.live = true) →
              t.wake.record.noted = s.wake.record.noted)
          ∧ ArmingAfterRemoval s t)

theorem leaseExpired_of_ceded (hstate : e.state = .ceded) : LeaseExpired s i e (withEntry i (e.leave .expired) s) :=
  ⟨rfl, rfl, rfl, rfl, rfl, rfl, fun h => by simp [hstate] at h, fun _ => ⟨rfl, rfl, rfl, rfl⟩, fun _ => rfl,
    fun _ h => by simp [hstate] at h⟩

theorem leaseExpired_of_not_serving (hstate : e.state = .active) (hserving : s.controller.standIn.serving = false) :
    LeaseExpired s i e (leaveActive i (withEntry i (e.leave .expired) s)) := by
  rw [leaveActive_of_not_serving (s := withEntry i (e.leave .expired) s) hserving]
  exact ⟨rfl, rfl, rfl, rfl, rfl, rfl, fun _ => rfl, fun _ => ⟨rfl, rfl, rfl, rfl⟩, fun h => by simp [hstate] at h,
    fun h => by simp [hserving] at h⟩

theorem leaseExpired_of_serving (hstate : e.state = .active) (hserving : s.controller.standIn.serving = true) :
    LeaseExpired s i e (leaveActive i (withEntry i (e.leave .expired) s)) := by
  obtain ⟨⟨hresponder, hkeeper⟩, ⟨hport, hcounters, hhold, hbuilder, hclassifier⟩, _, hlost, hnone⟩ :=
    leaveActive_does (i := i) (s := withEntry i (e.leave .expired) s) hserving
  have harming : ArmingAfterRemoval s (leaveActive i (withEntry i (e.leave .expired) s)) :=
    leaveActive_arming (fun h => ⟨h, rfl⟩) rfl rfl rfl
  exact ⟨congrArg Responder.entries hresponder, hport, hhold, hcounters, hclassifier, hbuilder,
    fun _ => congrArg Responder.list hresponder, fun h => by simp [hstate, hserving] at h, fun h => by simp [hstate] at h,
    fun _ _ => ⟨hkeeper, hlost, hnone, harming⟩⟩

/-- An entry that was ACTIVE leaves ACTIVE, in a stand-in or outside; one that was CEDED only becomes EXPIRED. -/
theorem takeLeaseDeadline_expires (he : lookup s.responder.entries i = some e) (haddress : e.isAddress = true)
    (hstate : e.state ≠ .expired) (hpassed : e.deadlinePassed s.time = true) :
    LeaseExpired s i e (takeLeaseDeadline i s) := by
  rw [takeLeaseDeadline_ready he haddress hstate hpassed]
  cases hst : e.state
  case expired => exact absurd hst hstate
  case ceded => exact leaseExpired_of_ceded hst
  case active =>
    rw [if_pos rfl]
    cases hserving : s.controller.standIn.serving
    · exact leaseExpired_of_not_serving hst hserving
    · exact leaseExpired_of_serving hst hserving

end

/-! Periods. -/

theorem takePeriod_ready {cls : PeriodClass} {s : State}
    (hready : periodLength cls ≤ elapsed s.time (s.classifier.periods.get cls)) :
    takePeriod cls s = expirePeriod cls s := if_pos (decide_eq_true hready)

/-- Settles O58: by the branch of each command where it is ready; the lease deadline by the entry's state. -/
theorem periodsAndLeases : Obligations.PeriodsAndLeases := by
  intro s i e
  refine ⟨fun cls hready => ⟨takePeriod cls s, rfl, ?_⟩, fun he hserving haddress hmark hreached =>
    ⟨takeMargin i s, rfl, ?_⟩, fun he haddress hstate hpassed =>
    ⟨takeLeaseDeadline i s, rfl, takeLeaseDeadline_expires he haddress hstate hpassed⟩⟩
  · rw [takePeriod_ready hready]
    cases cls
    case p1 => exact ⟨rfl, rfl, rfl⟩
    all_goals exact ⟨rfl, rfl, rfl⟩
  · rw [takeMargin_ready he hserving haddress hmark hreached]
    have hnoted := reportCause_noted { cause := .lease, origin := some i, frame := none }
      (withEntry i { e with leaseMark := true } s) hserving
    obtain ⟨_, hresponder, _, _, hkeeper, hhold, hport, hcounters, _⟩ :=
      reportCause_keeps { cause := .lease, origin := some i, frame := none } (withEntry i { e with leaseMark := true } s)
    exact ⟨by rw [hresponder]; exact lookup_withEntry he _, hnoted, hkeeper, hport, hhold, hcounters⟩

end Sys2Proof.Proofs
end

section
/-! PROOFS. Reports and probes (O59). -/

namespace Sys2Proof.Proofs

open Sys2Proof Sys2Proof.Machine

/-! Offers in a stand-in. -/

/-- A slot accepted at the transmit queue's tail and sent. -/
def enqueued (slot : TxSlot) (s : State) : State :=
  { s with port := { s.port with txQueue := s.port.txQueue ++ [slot], sent := s.port.sent ++ [.txFrame slot.frame] } }

theorem offerTx_of_accepted {kind : TxKind} {s : State} (haccepted : offerResult kind s = .accepted) (owner : TxOwner)
    (frame : List Byte) :
    offerTx kind owner frame s = enqueued { kind := kind, owner := owner, frame := frame } s := by
  rw [offerTx, haccepted]
  rfl

theorem offerResult_probe_of_full {s : State} (hserving : s.controller.standIn.serving = true)
    (hfull : 8 ≤ s.port.txQueue.length) : offerResult .probe s = .deferred := by
  rw [offerResult, if_pos hserving, if_neg (by omega)]

/-! The offer of a pending probe. -/

/-- The device with a session's probe queued: the next probe of the device, at the tail of the transmit queue. -/
def probeQueued (i : Nat) (x : Session) (s : State) : State :=
  { enqueued { kind := .probe, owner := .probe i s.keeper.nextProbe,
               frame := segmentOf s.responder.entries x (x.sndNxt - 1) } s with
    keeper :=
      { sessions := s.keeper.sessions.set i (some { x with phase := .queued, probeId := s.keeper.nextProbe })
        nextProbe := s.keeper.nextProbe + 1 } }

section
variable {s : State} {i : Nat} {x : Session}

theorem offerProbe_queued (hx : lookup s.keeper.sessions i = some x) (hstate : x.state = .probing)
    (hphase : x.phase = .pending) (hserving : s.controller.standIn.serving = true) (hlink : s.port.linkUp = true)
    (hroom : s.port.txQueue.length < 8) : offerProbe i s = probeQueued i x s := by
  have haccepted : offerResult .probe s = .accepted := (accepted_iff s hserving).mpr hroom
  rw [offerProbe, hx]
  dsimp only
  rw [if_pos ⟨hstate, hphase, hlink⟩, if_pos haccepted, offerTx_of_accepted haccepted, probeQueued,
    ← modifyAt_eq_set hx (fun x => { x with phase := .queued, probeId := s.keeper.nextProbe })]
  rfl

/-- A probe waits while the link is DOWN and while no slot is free. -/
theorem offerProbe_waits (hserving : s.controller.standIn.serving = true)
    (hwaits : s.port.linkUp = false ∨ 8 ≤ s.port.txQueue.length) : offerProbe i s = s := by
  rw [offerProbe]
  split
  case h_1 => rfl
  case h_2 x hx =>
    split_ifs with hoffered haccepted
    · obtain ⟨_, _, hlink⟩ := hoffered
      have hroom := (accepted_iff s hserving).mp haccepted
      rcases hwaits with hdown | hfull
      · simp [hlink] at hdown
      · omega
    · obtain ⟨_, _, hlink⟩ := hoffered
      have hfull : 8 ≤ s.port.txQueue.length := hwaits.resolve_left (by simp [hlink])
      simp only [offerTx, offerResult_probe_of_full hserving hfull]
    · rfl

theorem lookup_withSession (hx : lookup s.keeper.sessions i = some x) (y : Session) :
    lookup (withSession i y s).keeper.sessions i = some y := (lookup_set hx i).trans (if_pos rfl)

theorem modifySession_at (hx : lookup s.keeper.sessions i = some x) (f : Session → Session) :
    modifySession i f s = withSession i (f x) s := by
  rw [modifySession, modifyAt_eq_set hx]
  rfl

/-- The probe of a record that stands at an index is queued. -/
theorem probeQueued_does (hx : lookup s.keeper.sessions i = some x) :
    lookup (probeQueued i x s).keeper.sessions i = some { x with phase := .queued, probeId := s.keeper.nextProbe } :=
  lookup_withSession hx _

/-! A keepalive round begun. -/

/-- The record of a session whose keepalive round begins. -/
def Session.roundBegun (x : Session) : Session :=
  { x with state := .probing, nextDue := none, outstanding := 1, deadline := none, phase := .pending }

theorem takeDue_ready (hx : lookup s.keeper.sessions i = some x) (hserving : s.controller.standIn.serving = true)
    (hreached : x.dueReached s.time = true) : takeDue i s = offerProbe i (withSession i (Session.roundBegun x) s) := by
  rw [takeDue, hx]
  dsimp only
  rw [if_pos (by rw [dueReady, hserving, hreached]; rfl), beginRound, modifySession_at hx]
  rfl

/-! The expiry of a probe timer. -/

theorem probeReady_of_reached (hserving : s.controller.standIn.serving = true)
    (hreached : x.probeTimerReached s.time = true) : probeReady x s = true := by
  rw [probeReady, hserving, hreached]
  rfl

/-- The record of a session that makes its next probe. -/
def Session.nextRound (x : Session) : Session :=
  { x with deadline := none, outstanding := x.outstanding + 1, phase := .pending }

theorem takeProbeTimer_ready (hx : lookup s.keeper.sessions i = some x) (hserving : s.controller.standIn.serving = true)
    (hreached : x.probeTimerReached s.time = true) :
    takeProbeTimer i s = if s.port.linkUp then probeTimeout i x s else probeTimeoutDown i s := by
  rw [takeProbeTimer, hx]
  dsimp only
  rw [if_pos (probeReady_of_reached hserving hreached)]

theorem probeTimeoutDown_at (hx : lookup s.keeper.sessions i = some x) :
    probeTimeoutDown i s = withSession i { x with deadline := none, phase := .pending } s := modifySession_at hx _

theorem probeTimeout_again (hx : lookup s.keeper.sessions i = some x) (hbelow : x.outstanding < x.limit) :
    probeTimeout i x s = offerProbe i (withSession i (Session.nextRound x) s) := by
  rw [probeTimeout, if_pos hbelow, modifySession_at hx]
  rfl

theorem probeTimeout_lost (hx : lookup s.keeper.sessions i = some x) (hlimit : x.limit ≤ x.outstanding) :
    probeTimeout i x s = reportCause (lostReport i none) (withSession i x.lose s) := by
  rw [probeTimeout, if_neg (by omega), modifySession_at hx]

/-! A report that falls due. -/

variable {e : IdentityEntry} {r : PendingReport}

theorem takeReportDeadline_ready (he : lookup s.responder.entries i = some e)
    (hserving : s.controller.standIn.serving = true) (hr : e.report = some r) (hreached : r.reached s.time = true) :
    takeReportDeadline i s = reportDue i e r s := by
  have hready : reportReady e s = some r := by simp [reportReady, hserving, hr, Option.filter, hreached]
  rw [takeReportDeadline, he]
  dsimp only
  rw [hready]

theorem reportDue_offered (he : lookup s.responder.entries i = some e) (hserving : s.controller.standIn.serving = true)
    (hlink : s.port.linkUp = true) (hroom : s.port.txQueue.length < 8) :
    reportDue i e r s =
      withEntry i { e with report := none }
        (enqueued { kind := .report, owner := .dueReport i, frame := reportFrame s.responder.entries e r.form } s) := by
  have haccepted : offerResult .report s = .accepted := (accepted_iff s hserving).mpr hroom
  rw [reportDue, if_pos ⟨hlink, haccepted⟩, offerTx_of_accepted haccepted, modifyEntry,
    modifyAt_eq_set (show lookup (enqueued _ s).responder.entries i = some e from he)]
  rfl

theorem reportDue_waits (he : lookup s.responder.entries i = some e) (hserving : s.controller.standIn.serving = true)
    (hwaits : s.port.linkUp = false ∨ 8 ≤ s.port.txQueue.length) :
    reportDue i e r s = withEntry i { e with report := some { r with due := true } } s := by
  have hnot : ¬ (s.port.linkUp = true ∧ offerResult .report s = .accepted) := by
    rintro ⟨hlink, haccepted⟩
    have hroom := (accepted_iff s hserving).mp haccepted
    rcases hwaits with hdown | hfull
    · simp [hlink] at hdown
    · omega
  rw [reportDue, if_neg hnot, modifyEntry, modifyAt_eq_set he]
  rfl

end

/-- Settles O59: the report, the round begun and the probe timer, each by whether the link is UP and a slot is free, the
probe timer by the limit too. -/
theorem reportsAndProbes : Obligations.ReportsAndProbes := by
  intro s i hserving
  refine ⟨fun e r he hr hreached => ⟨fun hlink hroom => ⟨takeReportDeadline i s, rfl, ?_⟩, fun hwaits =>
      ⟨takeReportDeadline i s, rfl, ?_⟩⟩,
    fun x hx hreached => ⟨fun hlink hroom => ⟨takeDue i s, rfl, ?_⟩, fun hwaits => ⟨takeDue i s, rfl, ?_⟩⟩,
    fun x hx hreached => ?_⟩
  · rw [takeReportDeadline_ready he hserving hr hreached, reportDue_offered he hserving hlink hroom]
    exact ⟨(lookup_set he i).trans (if_pos rfl), rfl, rfl⟩
  · rw [takeReportDeadline_ready he hserving hr hreached, reportDue_waits he hserving hwaits]
    exact ⟨lookup_withEntry he _, rfl, rfl⟩
  · have hy := lookup_withSession hx (Session.roundBegun x)
    rw [takeDue_ready hx hserving hreached, offerProbe_queued hy rfl rfl hserving hlink hroom]
    exact ⟨probeQueued_does hy, rfl⟩
  · rw [takeDue_ready hx hserving hreached,
      offerProbe_waits (s := withSession i (Session.roundBegun x) s) hserving hwaits]
    exact ⟨lookup_withSession hx _, rfl⟩
  · have hstate := probing_of_probeReady (probeReady_of_reached hserving hreached)
    have hready := takeProbeTimer_ready hx hserving hreached
    have hy := lookup_withSession hx (Session.nextRound x)
    refine ⟨fun hlink => ⟨_, rfl, ?_⟩, fun hlink hbelow hroom => ⟨_, rfl, ?_⟩, fun hlink hbelow hfull => ⟨_, rfl, ?_⟩,
      fun hlink hlimit => ⟨_, rfl, ?_⟩⟩
    · rw [hready, hlink, if_neg Bool.false_ne_true, probeTimeoutDown_at hx]
      exact ⟨lookup_withSession hx _, rfl, rfl⟩
    · rw [hready, if_pos hlink, probeTimeout_again hx hbelow, offerProbe_queued hy hstate rfl hserving hlink hroom]
      exact ⟨probeQueued_does hy, rfl, rfl, rfl⟩
    · rw [hready, if_pos hlink, probeTimeout_again hx hbelow,
        offerProbe_waits (s := withSession i (Session.nextRound x) s) hserving (.inr hfull)]
      exact ⟨hy, rfl, rfl, rfl⟩
    · have hnoted := reportCause_noted (lostReport i none) (withSession i x.lose s) hserving
      obtain ⟨_, _, _, _, hkeeper, _, hport, _⟩ := reportCause_keeps (lostReport i none) (withSession i x.lose s)
      rw [hready, if_pos hlink, probeTimeout_lost hx hlimit]
      exact ⟨by rw [hkeeper]; exact lookup_withSession hx _, hnoted, hport⟩

end Sys2Proof.Proofs
end
